-- ==== Sys2Proof/Word.lean ====
section
/-! DEFINITION. The word types of the two units (00_scope section 5, 30_encoding R56, R61). -/

namespace Sys2Proof

/-- A host register: 32 bits (R10, R11, R26). -/
abbrev Word := BitVec 32

/-- A byte of the two-wire bus, of the block buffer, or an 8-bit colour channel. -/
abbrev Byte := BitVec 8

/-- A 16-bit operand field `A`, `B`, `Cq` or `D` of a RAS command word (R56), as it stands in the word. -/
abbrev Field16 := BitVec 16

/-- A packed RGB565 value (R56, R71): also what one pixel of the Surface holds (`PIXEL_W` = 16). -/
abbrev Color := BitVec 16

/-- The 96-bit RAS command word `{RAS_ARG1, RAS_ARG0, RAS_CMD}` (R55, `CMD_W` = 96). -/
abbrev RasWord := BitVec 96

/-- A pixel index on the Surface port (R42): `IDX_W` = 48 bits. -/
abbrev PixelIdx := BitVec 48

/-- A 32-bit register offset inside a unit's block, as the number of the register: the byte offset
divided by 4 (R10: offsets are multiples of 4 from 0x00 to 0x3C; R45: no other can be expressed). -/
abbrev Offset := BitVec 4

/-- The register offset of the byte offset `b`, as the spec writes offsets. -/
def off (b : Nat) : Offset := BitVec.ofNat 4 (b / 4)

end Sys2Proof
end

