-- ==== Sys2Proof/Config.lean ====
section
/-! DEFINITION. What an implementation or a platform fixes (00_scope section 5), and the one free value of the model. -/

namespace Sys2Proof

/-- `BLOCK_MAX` (00_scope section 5, D25): the largest block read in bytes. -/
def Config.blockMax : Nat := 32

/-- `BYTE_WISE_FLAG` (R68, R137). -/
def Config.byteWiseFlag : Byte := 0x80

/-- `BLOCK_WISE_FLAG` (R68, R137). -/
def Config.blockWiseFlag : Byte := 0xC0

/-- FREE VALUE: what a pixel that nothing has written since power-on reads as (R34, R197, U5: "any value").
It has no body, so nothing can be proved of it (notes/assumptions/4.md). -/
opaque Config.initialPixel : Nat → Color

/-- The four colour channels of the example sensor (R159). -/
inductive Channel where
  | green
  | red
  | blue
  | clear
  deriving DecidableEq, Repr

/-- `CHMAP` (R160): which register pair, 0 to 3, holds which channel. A bijection is asked for by `Chmap.wellFormed`. -/
structure Chmap where
  green : Fin 4
  red : Fin 4
  blue : Fin 4
  clear : Fin 4
  deriving DecidableEq, Repr

/-- The pair number of a channel (R159, R160). -/
def Chmap.pair (m : Chmap) : Channel → Fin 4
  | .green => m.green
  | .red => m.red
  | .blue => m.blue
  | .clear => m.clear

/-- `CHMAP` is a bijection (R160): the four pair numbers differ. -/
def Chmap.wellFormed (m : Chmap) : Bool := decide [m.green, m.red, m.blue, m.clear].Nodup

/-- The default `CHMAP`, the order of FARB §6 (R160). -/
def Chmap.default : Chmap := { green := 0, red := 1, blue := 2, clear := 3 }

/-- `SURF_BYTE_ORDER` (R44): which byte of a pixel lies at the lower address of a byte-addressed framebuffer. -/
inductive ByteOrder where
  | little
  | big
  deriving DecidableEq, Repr

/-- The OPEN parameters of the platform (00_scope section 5, U12). They are outside the block: no rule of either unit
reads them, so they are an argument of the wrappers that need one and no part of `State` (notes/assumptions/16.md). -/
structure Platform where
  rasBase : Nat
  rdvBase : Nat
  fbBase : Nat
  surfByteOrder : ByteOrder
  /-- `BUS_TIMEOUT` (R141): `none`, or a bound inside the Bus provider; the unit has no timer. -/
  busTimeout : Option Nat
  /-- `SEL_CTRL_CMD` (R158), OPEN. -/
  selCtrlCmd : Byte
  chmap : Chmap
  deriving DecidableEq, Repr

end Sys2Proof
end

