-- ==== Sys2Proof/Syntax.lean ====
section
/-! DEFINITION. The twelve commands of FRC-1 (30_encoding R59, R62) and the two forms of a command word. -/

namespace Sys2Proof

/-- One constructor per row of spec/opcode_table.json. Every field of the command word is an argument, in the order of its
place in the word, the fields the row ignores too (R60): so `encode` gives back the very word that was decoded. -/
inductive Instr where
  /-- `LINE x1, y1, x2, y2, color` (R76) -/
  | line (x1 y1 x2 y2 : Field16) (color : Color)
  /-- `CIRCLE cx, cy, radius, color` (R91); `d` is the ignored field `D` -/
  | circle (cx cy radius d : Field16) (color : Color)
  /-- `CIRCLE.F cx, cy, radius, color` (R97); `d` is the ignored field `D` -/
  | circleF (cx cy radius d : Field16) (color : Color)
  /-- `ELLIPSE cx, cy, rx, ry, color` (R106) -/
  | ellipse (cx cy rx ry : Field16) (color : Color)
  /-- `ELLIPSE.F cx, cy, rx, ry, color` (R113) -/
  | ellipseF (cx cy rx ry : Field16) (color : Color)
  /-- `RECT x1, y1, x2, y2, color` (R121) -/
  | rect (x1 y1 x2 y2 : Field16) (color : Color)
  /-- `RECT.F x1, y1, x2, y2, color` (R125) -/
  | rectF (x1 y1 x2 y2 : Field16) (color : Color)
  /-- `PACK565 r8, g8, b8` (R70); `unused` is the ignored `C[95:56]`, `color` the ignored `C[31:16]` -/
  | pack565 (r8 g8 b8 : Byte) (unused : BitVec 40) (color : Color)
  /-- `RDBYTE addr` (R134); `opd` is ignored -/
  | rdbyte (addr opd : Byte)
  /-- `WRBYTE addr, value` (R135) -/
  | wrbyte (addr value : Byte)
  /-- `RDPAIR lowAddr` (R136); `opd` is ignored -/
  | rdpair (lowAddr opd : Byte)
  /-- `RDBLOCK blockAddr, count` (R138) -/
  | rdblock (blockAddr count : Byte)
  deriving DecidableEq, Repr

/-- A command as it reaches a unit: a 96-bit word for RAS (R55) or the 32-bit value written to `RDV_CMD` (R61). -/
inductive CommandWord where
  | ras (c : RasWord)
  | rdv (v : Word)
  deriving DecidableEq, Repr

end Sys2Proof
end

