-- ==== Sys2Proof/WellFormed.lean ====
section
/-! DEFINITION. Which terms of `Instr` have a legal command word (R57, R62). -/

namespace Sys2Proof

/-- The one check the field widths do not make already: `RDBLOCK` needs `1 <= count <= BLOCK_MAX` (R62). A negative radius
and a shape off the Surface are no defect of the word: they are faults of the accept step (R172, R173). -/
def Instr.wellFormed : Instr → Bool
  | .line _ _ _ _ _ => true
  | .circle _ _ _ _ _ => true
  | .circleF _ _ _ _ _ => true
  | .ellipse _ _ _ _ _ => true
  | .ellipseF _ _ _ _ _ => true
  | .rect _ _ _ _ _ => true
  | .rectF _ _ _ _ _ => true
  | .pack565 _ _ _ _ _ => true
  | .rdbyte _ _ => true
  | .wrbyte _ _ => true
  | .rdpair _ _ => true
  | .rdblock _ count => decide (1 ≤ count.toNat) && decide (count.toNat ≤ Config.blockMax)

/-- Is the command one of unit RAS (R59)? The others are of unit RDV (R62). -/
def Instr.isRas : Instr → Bool
  | .line _ _ _ _ _ => true
  | .circle _ _ _ _ _ => true
  | .circleF _ _ _ _ _ => true
  | .ellipse _ _ _ _ _ => true
  | .ellipseF _ _ _ _ _ => true
  | .rect _ _ _ _ _ => true
  | .rectF _ _ _ _ _ => true
  | .pack565 _ _ _ _ _ => true
  | .rdbyte _ _ => false
  | .wrbyte _ _ => false
  | .rdpair _ _ => false
  | .rdblock _ _ => false

end Sys2Proof
end

