-- ==== Sys2Proof/Decode.lean ====
section
/-! DEFINITION. Decoding of RAS and RDV command words (R56 to R62), and the encoder (R64, R65). -/

namespace Sys2Proof

/-- Why a command word is illegal (R57, R62): the names by which the decoder rejects. -/
inductive DecodeError where
  /-- `rsv` is not 0 -/
  | reservedBits
  /-- `op` is no opcode of the unit -/
  | unknownOpcode
  /-- `F = 1` with `LINE` or `PACK565` -/
  | filledFlag
  /-- `RDBLOCK` with `count = 0` or `count > BLOCK_MAX` -/
  | blockCount
  deriving DecidableEq, Repr

/-! ### Fields of a RAS command word (R56) -/

/-- `op`, `C[7:0]` -/
def RasWord.op (c : RasWord) : Byte := c.extractLsb' 0 8
/-- `F`, `C[8]` -/
def RasWord.filled (c : RasWord) : Bool := c.getLsbD 8
/-- `rsv`, `C[15:9]` -/
def RasWord.rsv (c : RasWord) : BitVec 7 := c.extractLsb' 9 7
/-- `color`, `C[31:16]` -/
def RasWord.color (c : RasWord) : Color := c.extractLsb' 16 16
/-- `A`, `C[47:32]` -/
def RasWord.fieldA (c : RasWord) : Field16 := c.extractLsb' 32 16
/-- `B`, `C[63:48]` -/
def RasWord.fieldB (c : RasWord) : Field16 := c.extractLsb' 48 16
/-- `Cq`, `C[79:64]` -/
def RasWord.fieldC (c : RasWord) : Field16 := c.extractLsb' 64 16
/-- `D`, `C[95:80]` -/
def RasWord.fieldD (c : RasWord) : Field16 := c.extractLsb' 80 16
/-- `r8`, `C[39:32]` -/
def RasWord.r8 (c : RasWord) : Byte := c.extractLsb' 32 8
/-- `g8`, `C[47:40]` -/
def RasWord.g8 (c : RasWord) : Byte := c.extractLsb' 40 8
/-- `b8`, `C[55:48]` -/
def RasWord.b8 (c : RasWord) : Byte := c.extractLsb' 48 8
/-- the part `C[95:56]` that `PACK565` does not use -/
def RasWord.unused (c : RasWord) : BitVec 40 := c.extractLsb' 56 40
/-- `C[31:0]`, the value that was written to `RAS_CMD` (R55) -/
def RasWord.cmdValue (c : RasWord) : Word := c.extractLsb' 0 32
/-- `C[63:32]`, the value of `RAS_ARG0` (R55) -/
def RasWord.arg0 (c : RasWord) : Word := c.extractLsb' 32 32
/-- `C[95:64]`, the value of `RAS_ARG1` (R55) -/
def RasWord.arg1 (c : RasWord) : Word := c.extractLsb' 64 32

/-- `C = {RAS_ARG1, RAS_ARG0, v}` (R55). -/
def rasWordOf (arg1 arg0 v : Word) : RasWord := arg1 ++ arg0 ++ v

/-- The instruction of a RAS command word (R57, R59): total, every word is one instruction or rejected by name. -/
def decodeRas (c : RasWord) : Except DecodeError Instr :=
  if c.rsv ≠ 0 then .error .reservedBits
  else if c.op = 0x01 then
    if c.filled then .error .filledFlag
    else .ok (.line c.fieldA c.fieldB c.fieldC c.fieldD c.color)
  else if c.op = 0x02 then
    if c.filled then .ok (.circleF c.fieldA c.fieldB c.fieldC c.fieldD c.color)
    else .ok (.circle c.fieldA c.fieldB c.fieldC c.fieldD c.color)
  else if c.op = 0x03 then
    if c.filled then .ok (.ellipseF c.fieldA c.fieldB c.fieldC c.fieldD c.color)
    else .ok (.ellipse c.fieldA c.fieldB c.fieldC c.fieldD c.color)
  else if c.op = 0x04 then
    if c.filled then .ok (.rectF c.fieldA c.fieldB c.fieldC c.fieldD c.color)
    else .ok (.rect c.fieldA c.fieldB c.fieldC c.fieldD c.color)
  else if c.op = 0x05 then
    if c.filled then .error .filledFlag
    else .ok (.pack565 c.r8 c.g8 c.b8 c.unused c.color)
  else .error .unknownOpcode

/-! ### Fields of an RDV command word (R61) -/

/-- `op`, `v[7:0]` -/
def rdvOp (v : Word) : Byte := v.extractLsb' 0 8
/-- `addr`, `v[15:8]` -/
def rdvAddr (v : Word) : Byte := v.extractLsb' 8 8
/-- `opd`, `v[23:16]` -/
def rdvOpd (v : Word) : Byte := v.extractLsb' 16 8
/-- `rsv`, `v[31:24]` -/
def rdvRsv (v : Word) : Byte := v.extractLsb' 24 8

/-- The instruction of an RDV command word (R62). -/
def decodeRdv (v : Word) : Except DecodeError Instr :=
  if rdvRsv v ≠ 0 then .error .reservedBits
  else if rdvOp v = 0x10 then .ok (.rdbyte (rdvAddr v) (rdvOpd v))
  else if rdvOp v = 0x11 then .ok (.wrbyte (rdvAddr v) (rdvOpd v))
  else if rdvOp v = 0x12 then .ok (.rdpair (rdvAddr v) (rdvOpd v))
  else if rdvOp v = 0x13 then
    if 1 ≤ (rdvOpd v).toNat ∧ (rdvOpd v).toNat ≤ Config.blockMax then .ok (.rdblock (rdvAddr v) (rdvOpd v))
    else .error .blockCount
  else .error .unknownOpcode

/-- The decoder of both units. -/
def decode : CommandWord → Except DecodeError Instr
  | .ras c => decodeRas c
  | .rdv v => decodeRdv v

/-! ### The encoder (R64, R65) -/

/-- A RAS command word from its fields (R56), `rsv` = 0: `{D, Cq, B, A, color, 0000000, F, op}`. -/
def rasWord (op : Byte) (filled : Bool) (color : Color) (a b cq d : Field16) : RasWord :=
  d ++ cq ++ b ++ a ++ color ++ (0 : BitVec 7) ++ BitVec.ofBool filled ++ op

/-- The command word of `PACK565` from its fields (R56, R70). -/
def packWord (r8 g8 b8 : Byte) (unused : BitVec 40) (color : Color) : RasWord :=
  unused ++ b8 ++ g8 ++ r8 ++ color ++ (0 : BitVec 7) ++ (0 : BitVec 1) ++ (0x05 : Byte)

/-- An RDV command word from its fields (R61), `rsv` = 0: `{0x00, opd, addr, op}`. -/
def rdvWord (op addr opd : Byte) : Word := (0 : Byte) ++ opd ++ addr ++ op

/-- The command word of an instruction (R59, R62). -/
def encode : Instr → CommandWord
  | .line x1 y1 x2 y2 color => .ras (rasWord 0x01 false color x1 y1 x2 y2)
  | .circle cx cy r d color => .ras (rasWord 0x02 false color cx cy r d)
  | .circleF cx cy r d color => .ras (rasWord 0x02 true color cx cy r d)
  | .ellipse cx cy rx ry color => .ras (rasWord 0x03 false color cx cy rx ry)
  | .ellipseF cx cy rx ry color => .ras (rasWord 0x03 true color cx cy rx ry)
  | .rect x1 y1 x2 y2 color => .ras (rasWord 0x04 false color x1 y1 x2 y2)
  | .rectF x1 y1 x2 y2 color => .ras (rasWord 0x04 true color x1 y1 x2 y2)
  | .pack565 r8 g8 b8 unused color => .ras (packWord r8 g8 b8 unused color)
  | .rdbyte addr opd => .rdv (rdvWord 0x10 addr opd)
  | .wrbyte addr value => .rdv (rdvWord 0x11 addr value)
  | .rdpair lowAddr opd => .rdv (rdvWord 0x12 lowAddr opd)
  | .rdblock blockAddr count => .rdv (rdvWord 0x13 blockAddr count)

/-! ### Words of the opcode table -/

/-- Is `op` an opcode of unit RDV (R62)? They are disjoint from those of RAS (D23). -/
def isRdvOpcode (op : Nat) : Bool := decide (0x10 ≤ op) && decide (op ≤ 0x13)

/-- The command that a table word of `nbits` bits stands for: the unit is the one whose opcodes hold its `op` byte
(D23: the opcodes of the two units are disjoint; notes/assumptions/3.md). -/
def tableCommand (nbits w : Nat) : CommandWord :=
  if nbits ≤ 32 ∧ isRdvOpcode (w % 256) = true then .rdv (BitVec.ofNat 32 (w % 2 ^ nbits))
  else .ras (BitVec.ofNat 96 (w % 2 ^ nbits))

/-- The instruction the decoder reads from a word of the opcode table; `none` where it rejects. -/
def decodeTableWord (nbits w : Nat) : Option Instr :=
  match decode (tableCommand nbits w) with
  | .ok i => some i
  | .error _ => none

end Sys2Proof
end

