-- ==== Sys2Proof/Machine/State.lean ====
section
/-! DEFINITION. The state of the block and of the agents around it (10_state), as plain data, and its reset values (R35). -/

namespace Sys2Proof.Machine

/-- A pixel `(x, y)` of a write sequence (R21): coordinates are integers (R2). -/
structure Pixel where
  x : Int
  y : Int
  deriving DecidableEq, Repr

/-- What `ERRCODE` records (R170); codes 5 to 15 are never recorded. -/
inductive FaultCode where
  /-- code 0: `ERR = 0` -/
  | none
  /-- code 1, `ILLEGAL_CMD` (R171) -/
  | illegalCmd
  /-- code 2, `NEG_RADIUS` (R172) -/
  | negRadius
  /-- code 3, `OUT_OF_BOUNDS` (R173) -/
  | outOfBounds
  /-- code 4, `BUS_ERROR` (R174) -/
  | busError
  deriving DecidableEq, Repr

/-- Unit RAS: the registers of R11 and the hidden state of R18. `RAS_CTRL` has no storage (R14); `RAS_CMD` reads back
`lcmd[31:0]` (R16). -/
structure Ras where
  busy : Bool
  done : Bool
  err : Bool
  ovr : Bool
  errcode : FaultCode
  errinfo : Word
  surfW : Word
  surfH : Word
  arg0 : Word
  arg1 : Word
  result : BitVec 16
  pixcnt : Word
  lcmd : RasWord
  lw : Word
  lh : Word
  seq : List Pixel
  k : Nat
  deriving DecidableEq, Repr

/-- The progress of the RDV command in flight (R33). -/
inductive Phase where
  /-- first write transfer requested -/
  | w1
  /-- first read transfer requested -/
  | r1
  /-- second write transfer of `RDPAIR` requested -/
  | w2
  /-- second read transfer of `RDPAIR` requested -/
  | r2
  deriving DecidableEq, Repr

/-- The fields of `RDV_XFER` (R28); bits 31:18 are zero. `ph` is true for a `BusRead`. -/
structure Xfer where
  req : Byte
  got : Byte
  ph : Bool
  sub : Bool
  deriving DecidableEq, Repr

/-- Unit RDV: the registers of R26 and the hidden state of R33. `RDV_CTRL` has no storage (R29); `RDV_CMD` reads back
`lrc` (R30); `ph = none` when no transfer is in flight. -/
structure Rdv where
  busy : Bool
  done : Bool
  err : Bool
  ovr : Bool
  errcode : FaultCode
  errinfo : Word
  xfer : Xfer
  lrc : Word
  data : BitVec 16
  buf : Vector Byte 32
  ph : Option Phase
  lo : Byte
  deriving DecidableEq, Repr

/-- The two units, each with a host port of its own (R10). -/
inductive HostUnit where
  | ras
  | rdv
  deriving DecidableEq, Repr

/-- What unit RDV asks of the Bus provider (R131), and the notification of R183. -/
inductive BusRequest where
  /-- `BusWrite(bytes)` -/
  | write (bytes : List Byte)
  /-- `BusRead(n)` -/
  | read (n : Nat)
  /-- `BusClose` -/
  | close
  deriving DecidableEq, Repr

/-- What the Bus provider answers (R131): a count to a `BusWrite`, bytes to a `BusRead`. -/
inductive BusAnswer where
  | count (k : Nat)
  | bytes (bs : List Byte)
  deriving DecidableEq, Repr

/-- One action of one agent: an entry of the schedule (R10, R19, R131, R195; notes/assumptions/1.md). -/
inductive Event where
  /-- `HostWrite(unit, off, v)` (R10) -/
  | hostWrite (unit : HostUnit) (off : Offset) (v : Word)
  /-- `HostRead(unit, off)` (R10) -/
  | hostRead (unit : HostUnit) (off : Offset)
  /-- the schedule gives the RAS engine a turn (R22, R23) -/
  | rasTurn
  /-- the Bus provider answers request number `req` of `bus.trace`, counted from 0 (R131; notes/assumptions/8.md) -/
  | busAnswer (req : Nat) (answer : BusAnswer)
  /-- the reset input (R195) -/
  | reset
  /-- another agent writes the value `v` at pixel index `idx` of the Surface (R49) -/
  | surfaceWrite (idx : Nat) (v : Color)
  deriving DecidableEq, Repr

/-- The Surface provider (R34, R41): its true dimensions and the pixel store, a list of (index, value) pairs with indexes
strictly rising. An index that is not listed has not been written since power-on (notes/assumptions/4.md). -/
structure Surface where
  width : Word
  height : Word
  pixels : List (Nat × Color)
  deriving DecidableEq, Repr

/-- The two-wire bus as unit RDV sees it (R40, R50): the requests it has issued, oldest first. Request number `n` is
`trace[n]`; while `BUSY = 1` the last one is outstanding (R131: at most one). -/
structure Bus where
  trace : List BusRequest
  deriving DecidableEq, Repr

/-- The whole machine: the two units, the Surface, the bus, and two fields of the MODEL's own: `script`, the actions of
the agents still to come, oldest first (notes/assumptions/1.md), and `readData`, the value the last `HostRead` returned
(notes/assumptions/15.md). -/
structure State where
  ras : Ras
  rdv : Rdv
  surface : Surface
  bus : Bus
  script : List Event
  readData : Word
  deriving DecidableEq, Repr

/-- Why the machine stops. The faults of the BLOCK are no stops: they are next states with `ERR` set (R170 to R181). -/
inductive Fault where
  /-- Raised by the pixel step when the next pixel of `SEQ` is off the Surface of the latched dimensions: the assertion
  R43 allows. It never fires in a state that a run reaches (R22, R179). Safe. -/
  | pixelOffSurface
  /-- Raised by the pixel step, and by another agent's write, for an index outside the provider's pixel store (R199, U2,
  U3: the host's dimensions are not the provider's, the result is undefined). Safe. -/
  | pixelOutsideStore
  /-- Raised by the response step when the phase, the latched command and the kind of answer do not belong together. No
  run reaches such a state. Safe (notes/assumptions/18.md). -/
  | rdvPhase
  deriving DecidableEq, Repr

/-- Why the machine makes no claim about a run. -/
inductive Refusal where
  /-- Raised by `exec` for an instruction without a meaning. No arm does so. Safe. -/
  | notModelled (mnemonic : String)
  /-- Raised by another agent's Surface write while `RAS_STATUS.BUSY = 1` (R49, U4: "a model should refuse such a run"). Safe. -/
  | concurrentSurfaceWriter
  /-- Raised by an answer of the Bus provider outside the shape R131 gives: a count above the request's length, more bytes
  than were asked, or the wrong kind of answer. Safe. -/
  | busAnswerShape
  deriving DecidableEq, Repr

/-- The outcome of a step of this machine. -/
abbrev Out := Host.Outcome State Fault Refusal

/-- Unit RAS after reset (R11, R35): all zero, `SEQ` empty. -/
def Ras.reset : Ras where
  busy := false
  done := false
  err := false
  ovr := false
  errcode := .none
  errinfo := 0
  surfW := 0
  surfH := 0
  arg0 := 0
  arg1 := 0
  result := 0
  pixcnt := 0
  lcmd := 0
  lw := 0
  lh := 0
  seq := []
  k := 0

/-- `RDV_XFER` = 0. -/
def Xfer.zero : Xfer := { req := 0, got := 0, ph := false, sub := false }

/-- Unit RDV after reset (R26, R35): all zero, `ph` none. -/
def Rdv.reset : Rdv where
  busy := false
  done := false
  err := false
  ovr := false
  errcode := .none
  errinfo := 0
  xfer := Xfer.zero
  lrc := 0
  data := 0
  buf := Vector.replicate 32 0
  ph := none
  lo := 0

/-- The machine right after power-on reset. Both units as R35 says. The Surface and the bus are not reset by the block
(R197): no pixel is listed, the provider's dimensions are the largest (DESIGN CHOICE, notes/assumptions/5.md), no request
has been issued (notes/assumptions/10.md), and no agent has an action to come (notes/assumptions/1.md). -/
def State.reset : State where
  ras := Ras.reset
  rdv := Rdv.reset
  surface := { width := 0xFFFFFFFF, height := 0xFFFFFFFF, pixels := [] }
  bus := { trace := [] }
  script := []
  readData := 0

end Sys2Proof.Machine
end

