-- ==== Sys2Proof/Machine/Flags.lean ====
section
/-! DEFINITION. The status words, the fault codes and `RDV_XFER` as the host reads them (R12, R13, R27, R28, R170). -/

namespace Sys2Proof.Machine

/-- One bit of a 32-bit register. -/
def flagBit (n : Nat) (b : Bool) : Word := if b then BitVec.ofNat 32 (2 ^ n) else 0

/-- `STATUS` (R12, R27): bit 0 `BUSY`, bit 1 `DONE`, bit 2 `ERR`, bit 3 `OVR`, bits 31:4 zero. -/
def statusWord (busy done err ovr : Bool) : Word :=
  flagBit 0 busy ||| flagBit 1 done ||| flagBit 2 err ||| flagBit 3 ovr

/-- The number of a fault code (R170). -/
def FaultCode.code : FaultCode → BitVec 4
  | .none => 0
  | .illegalCmd => 1
  | .negRadius => 2
  | .outOfBounds => 3
  | .busError => 4

/-- `ERRCODE` as read (R13, R28): the code in bits 3:0, bits 31:4 zero. -/
def errcodeWord (c : FaultCode) : Word := c.code.setWidth 32

/-- `RDV_XFER` as read (R28): `{0[31:18], SUB, PH, GOT[7:0], REQ[7:0]}`. -/
def xferWord (x : Xfer) : Word :=
  (0 : BitVec 14) ++ BitVec.ofBool x.sub ++ BitVec.ofBool x.ph ++ x.got ++ x.req

/-- `CLR_ERR`, bit 0 of `RAS_CTRL` and `RDV_CTRL` (R14, R29) -/
def clrErr (v : Word) : Bool := v.getLsbD 0
/-- `CLR_DONE`, bit 1 -/
def clrDone (v : Word) : Bool := v.getLsbD 1
/-- `CLR_OVR`, bit 2 -/
def clrOvr (v : Word) : Bool := v.getLsbD 2
/-- `ABORT`, bit 3 of `RDV_CTRL` (R29, R183) -/
def abortBit (v : Word) : Bool := v.getLsbD 3

end Sys2Proof.Machine
end

