-- ==== Sys2Proof/Machine/Operands.lean ====
section
/-! DEFINITION. How operands are read (R2, R58, R137) and the loops that the shapes share (R93, R95, R111, R122). -/

namespace Sys2Proof.Machine

/-- `sext_16` (R58): a coordinate or radius field as an integer, -32768 to 32767. -/
def signed (f : Field16) : Int := f.toInt

/-- `zext_32` of a dimension (R15): an unsigned register as an integer. -/
def dim (w : Word) : Int := (w.toNat : Int)

/-- The integers from `lo` to `hi`, both included, ascending; none if `hi < lo` (R122). -/
def span (lo hi : Int) : List Int := (List.range (hi - lo + 1).toNat).map fun n => lo + (n : Int)

/-- A list without the entries that equal an earlier one (R93, R109): "leaving out every pixel that is equal to an earlier
pixel of the same list". -/
def firstOccurrences : List Pixel → List Pixel
  | [] => []
  | p :: ps => p :: (firstOccurrences ps).filter fun q => decide (q ≠ p)

/-- `max` of the `x` of those points of a walk that lie in row `j` (R95, R111). The walks hold no negative `x`, and every
row that is asked has a point, so starting at 0 adds nothing. -/
def rowMax (pts : List Pixel) (j : Int) : Int :=
  pts.foldl (fun m p => if p.y = j then max m p.x else m) 0

/-- The span fill (R95, R111): rows from `-ry` to `ry`, each from `-xm |j|` to `xm |j|`, left to right. -/
def spanFill (cx cy ry : Int) (xm : Int → Int) : List Pixel :=
  (span (-ry) ry).flatMap fun j =>
    let m := xm (j.natAbs : Int)
    (span (-m) m).map fun i => { x := cx + i, y := cy + j }

/-- Is the pixel `(x, y)` on a Surface of `w` by `h` pixels (R41)? -/
def onSurface (w h : Word) (x y : Int) : Bool :=
  decide (0 ≤ x) && decide (x < dim w) && decide (0 ≤ y) && decide (y < dim h)

/-- Are all pixels of the box from `(x1, y1)` to `(x2, y2)` on the Surface, given two opposite corners (R82, R126)? -/
def cornersOnSurface (w h : Word) (x1 y1 x2 y2 : Int) : Bool :=
  onSurface w h x1 y1 && onSurface w h x2 y2

/-- The test of R98 and R114: `cx - ex >= 0 and cx + ex < LW and cy - ey >= 0 and cy + ey < LH`, over the integers and on any
Surface. R42 says that columns and rows above 32767 cannot be drawn on: DESIGN CHOICE, unsafe (notes/assumptions/13.md). -/
def extentOnSurface (w h : Word) (cx cy ex ey : Int) : Bool :=
  decide (cx - ex ≥ 0) && decide (cx + ex < dim w) && decide (cy - ey ≥ 0) && decide (cy + ey < dim h)

/-- `cmdbyte(flag, a) = (flag | a) & 0xFF` (R137): a bitwise OR of bytes. -/
def cmdbyte (flag a : Byte) : Byte := flag ||| a

end Sys2Proof.Machine
end

