-- ==== Sys2Proof/Machine/Ops.lean ====
section
/-! DEFINITION. The shared operations: the pixel store (R41 to R43), the accept step, fault entry, fault return, pixel step and
finish step of unit RAS (R14, R20 to R24, R176, R181), and the same of unit RDV (R29, R132, R139, R177, R183). -/

namespace Sys2Proof.Machine

/-! ### The pixel store -/

/-- The value listed at pixel index `idx`; `none` if nothing has written it since power-on. -/
def Surface.lookup (sf : Surface) (idx : Nat) : Option Color :=
  (sf.pixels.find? fun p => p.1 == idx).map Prod.snd

/-- What an agent that reads the Surface sees at `idx` (R49): the listed value, or the free value of an unwritten pixel. -/
def Surface.read (sf : Surface) (idx : Nat) : Color := (sf.lookup idx).getD (Config.initialPixel idx)

/-- Insert a pair into a list with strictly rising indexes, replacing an entry of the same index. -/
def pixelInsert (idx : Nat) (v : Color) : List (Nat × Color) → List (Nat × Color)
  | [] => [(idx, v)]
  | p :: ps =>
    if idx < p.1 then (idx, v) :: p :: ps
    else if idx = p.1 then (idx, v) :: ps
    else p :: pixelInsert idx v ps

/-- `MemWrite(idx, 2, v)` (R43): afterwards `P[idx] = v` and every other pixel is unchanged. -/
def Surface.write (sf : Surface) (idx : Nat) (v : Color) : Surface :=
  { sf with pixels := pixelInsert idx v sf.pixels }

/-- How many pixels the provider's store holds (R34): `width * height`. -/
def Surface.size (sf : Surface) : Nat := sf.width.toNat * sf.height.toNat

/-- The canonical form of the pixel store: indexes strictly rising (notes/assumptions/4.md). -/
def Surface.wf (sf : Surface) : Bool := decide (sf.pixels.Pairwise fun a b => a.1 < b.1)

/-- The pixel index `x + y*LW` (R41, R52) as the Surface port carries it, in 48 bits (R42). Every pixel of an accepted command
has an index below 2^48, so that none is cut. -/
def pixelIndex (lw : Word) (p : Pixel) : PixelIdx := BitVec.ofInt 48 (p.x + p.y * dim lw)

/-- Where the bytes of pixel `idx` lie in a byte-addressed framebuffer (R44): `FB_BASE + 2*idx` and the address after it. -/
def pixelAddress (pf : Platform) (idx : Nat) : Nat := pf.fbBase + 2 * idx

/-- The two bytes of a pixel value in rising address order, by `SURF_BYTE_ORDER` (R44). -/
def pixelBytes (order : ByteOrder) (v : Color) : Byte × Byte :=
  match order with
  | .little => (v.extractLsb' 0 8, v.extractLsb' 8 8)
  | .big => (v.extractLsb' 8 8, v.extractLsb' 0 8)

/-! ### Unit RAS -/

/-- The first lines of the accept step (R20): the command word and the dimensions are latched, `DONE`, `RAS_PIXCNT` and `k` cleared. -/
def rasLatch (c : RasWord) (r : Ras) : Ras :=
  { r with lcmd := c, lw := r.surfW, lh := r.surfH, done := false, pixcnt := 0, k := 0 }

/-- TAKING A FAULT in unit RAS: `raise X(v)` (R176). -/
def rasRaise (code : FaultCode) (v : Word) (r : Ras) : Ras :=
  { r with err := true, errcode := code, errinfo := v, busy := false, done := false, seq := [], k := 0 }

/-- RETURN FROM A FAULT in unit RAS: `CLR_ERR` (R14, R181). -/
def rasClearErr (r : Ras) : Ras := { r with err := false, errcode := .none, errinfo := 0 }

/-- The write of `RAS_CTRL` (R14). -/
def rasCtrl (v : Word) (r : Ras) : Ras :=
  let r1 := if clrErr v then rasClearErr r else r
  let r2 := if clrDone v then { r1 with done := false } else r1
  if clrOvr v then { r2 with ovr := false } else r2

/-- Does unit RAS accept a command (R20, R24)? -/
def Ras.ready (r : Ras) : Bool := !r.busy && !r.err

/-- The write of a command word to `RAS_CMD`: the accept step (R20) with the command's own part `body`, or, when `BUSY = 1` or
`ERR = 1`, a dropped command (R24). -/
def rasIssue (c : RasWord) (body : Ras → Ras) (r : Ras) : Ras :=
  if r.ready then body (rasLatch c r) else { r with ovr := true }

/-- The same, on the whole state: a command acts on nothing but its own unit (R1). -/
def rasAccept (c : RasWord) (body : Ras → Ras) (s : State) : Out := .next { s with ras := rasIssue c body s.ras }

/-- The last line of the accept step of a drawing command (R20): `SEQ <- ... ; BUSY <- 1`. -/
def rasBegin (seq : List Pixel) (r : Ras) : Ras := { r with seq := seq, busy := true }

/-- A command word that is not legal (R57, R171): latched, then `IllegalCommand`. -/
def rasIllegal (c : RasWord) (s : State) : Out := rasAccept c (rasRaise .illegalCmd c.cmdValue) s

/-- The pixel step (R22) for the pixel `p = SEQ[k]`. The two tests are the assertion of R43 and the bound of the provider's
store (U2, U3; notes/assumptions/6.md). -/
def pixelStep (p : Pixel) (s : State) : Out :=
  if onSurface s.ras.lw s.ras.lh p.x p.y = false then .fault .pixelOffSurface
  else if s.surface.size ≤ (pixelIndex s.ras.lw p).toNat then .fault .pixelOutsideStore
  else .next { s with
    surface := s.surface.write (pixelIndex s.ras.lw p).toNat s.ras.lcmd.color
    ras := { s.ras with k := s.ras.k + 1, pixcnt := s.ras.pixcnt + 1 } }

/-- The finish step (R23). -/
def rasFinish (r : Ras) : Ras := { r with busy := false, done := true }

/-- The engine's turn: the pixel step (R22), the finish step (R23), or nothing when no engine step is enabled (R190). -/
def rasTurn (s : State) : Out :=
  if s.ras.busy then
    match s.ras.seq[s.ras.k]? with
    | some p => pixelStep p s
    | none => if s.ras.k = s.ras.seq.length then .next { s with ras := rasFinish s.ras } else .next s
  else .next s

/-! ### Unit RDV -/

/-- A new request to the Bus provider (R131): it joins the end of the trace. -/
def Bus.issue (b : Bus) (q : BusRequest) : Bus := { b with trace := b.trace ++ [q] }

/-- Does unit RDV accept a command (R132)? -/
def Rdv.ready (r : Rdv) : Bool := !r.busy && !r.err

/-- TAKING A FAULT in unit RDV, the part both causes share (R177). -/
def rdvRaise (code : FaultCode) (info : Word) (x : Xfer) (r : Rdv) : Rdv :=
  { r with err := true, errcode := code, errinfo := info, xfer := x, busy := false, done := false, ph := none }

/-- `raise BusError(REQ, GOT, PH, SUB)` (R174, R177). -/
def rdvBusError (req got : Nat) (ph sub : Bool) (r : Rdv) : Rdv :=
  { rdvRaise .busError r.lrc { req := BitVec.ofNat 8 req, got := BitVec.ofNat 8 got, ph := ph, sub := sub } r with lo := 0 }

/-- RETURN FROM A FAULT in unit RDV: `CLR_ERR` (R29, R181). -/
def rdvClearErr (r : Rdv) : Rdv := { r with err := false, errcode := .none, errinfo := 0, xfer := Xfer.zero }

/-- The first line of the accept step (R132): `LRC <- v ; DONE <- 0`. -/
def rdvLatch (v : Word) (r : Rdv) : Rdv := { r with lrc := v, done := false }

/-- The write of a legal command word to `RDV_CMD`: the accept step (R132) with the first write transfer `w1`, or a dropped
command (R30). -/
def rdvIssue (v : Word) (w1 : List Byte) (s : State) : State :=
  if s.rdv.ready then
    { s with
      rdv := { rdvLatch v s.rdv with busy := true, ph := some .w1 }
      bus := s.bus.issue (.write w1) }
  else { s with rdv := { s.rdv with ovr := true } }

/-- A command word that is not legal (R62, R171): latched, then `IllegalCommand`; no transfer. -/
def rdvIllegal (v : Word) (s : State) : Out :=
  .next { s with rdv :=
    if s.rdv.ready then rdvRaise .illegalCmd v Xfer.zero (rdvLatch v s.rdv) else { s.rdv with ovr := true } }

/-- The abort (R183): every register and hidden variable of the unit to its reset value, and `BusClose`. -/
def rdvAbort (s : State) : State := { s with rdv := Rdv.reset, bus := s.bus.issue .close }

/-- The write of `RDV_CTRL` (R29). -/
def rdvCtrl (v : Word) (s : State) : State :=
  if abortBit v then rdvAbort s
  else
    let r1 := if clrErr v then rdvClearErr s.rdv else s.rdv
    let r2 := if clrDone v then { r1 with done := false } else r1
    { s with rdv := if clrOvr v then { r2 with ovr := false } else r2 }

/-- The finish of an RDV command (R139), after its result writes. -/
def rdvFinish (r : Rdv) : Rdv := { r with busy := false, done := true, ph := none }

/-- The unit takes the answer `k` to a `BusWrite` of `req` bytes (R133): a short count is a `BusError`, else `next`. -/
def afterWrite (req : Nat) (sub : Bool) (k : Nat) (next : State → State) (s : State) : State :=
  if k = req then next s else { s with rdv := rdvBusError req k false sub s.rdv }

/-- The unit takes the answer `bs` to a `BusRead` of `n` bytes (R133). -/
def afterRead (n : Nat) (sub : Bool) (bs : List Byte) (next : State → State) (s : State) : State :=
  if bs.length = n then next s else { s with rdv := rdvBusError n bs.length true sub s.rdv }

/-- `ph <- p` and the next request (R133). -/
def rdvRequest (p : Phase) (q : BusRequest) (s : State) : State :=
  { s with rdv := { s.rdv with ph := some p }, bus := s.bus.issue q }

/-- `RDV_DATA <- v ; finish` (R133, R139). -/
def rdvFinishData (v : BitVec 16) (s : State) : State :=
  { s with rdv := rdvFinish { s.rdv with data := v } }

/-- `BUF[i] <- bs[i]` for the bytes received, the rest of the buffer unchanged (R32, R138). -/
def storeBlock (bs : List Byte) (buf : Vector Byte 32) : Vector Byte 32 :=
  Vector.ofFn fun i => (bs[i.val]?).getD buf[i]

/-- Is `a` a possible answer to the request `q` (R131)? -/
def BusAnswer.fits : BusRequest → BusAnswer → Bool
  | .write sent, .count k => decide (k ≤ sent.length)
  | .read n, .bytes bs => decide (bs.length ≤ n)
  | _, _ => false

end Sys2Proof.Machine
end

