-- ==== Sys2Proof/Machine/Circle.lean ====
section
/-! DEFINITION. The meanings of `CIRCLE` and `CIRCLE.F` (42_circle). -/

namespace Sys2Proof.Machine

/-- The loop of the octant walk (R92), with fuel: `x` rises by 1 from one visit to the next and a visit has `x <= y <= r`, so
`r + 1` visits are all there can be. -/
def octWalk : Nat → Int → Int → Int → List Pixel
  | 0, _, _, _ => []
  | n + 1, x, y, d =>
    if x ≤ y then
      { x := x, y := y } ::
        (if d < 0 then octWalk n (x + 1) y (d + 2 * x + 3)
         else octWalk n (x + 1) (y - 1) (d + 2 * (x - y) + 5))
    else []

/-- `OCT(r)` (R92), for `r >= 0`. -/
def oct (r : Int) : List Pixel := octWalk (r.toNat + 1) 0 r (1 - r)

/-- `PLOT8(cx, cy, x, y)` (R93). -/
def plot8 (cx cy : Int) (p : Pixel) : List Pixel :=
  firstOccurrences
    [{ x := cx + p.x, y := cy + p.y }, { x := cx - p.x, y := cy + p.y },
     { x := cx + p.x, y := cy - p.y }, { x := cx - p.x, y := cy - p.y },
     { x := cx + p.y, y := cy + p.x }, { x := cx - p.y, y := cy + p.x },
     { x := cx + p.y, y := cy - p.x }, { x := cx - p.y, y := cy - p.x }]

/-- `SEQ_circle(cx, cy, r)` (R93). -/
def seqCircle (cx cy r : Int) : List Pixel := (oct r).flatMap (plot8 cx cy)

/-- `Q(r)` (R95): the points of the octant walk and their mirror images. -/
def quarter (r : Int) : List Pixel := oct r ++ (oct r).map fun p => { x := p.y, y := p.x }

/-- `SEQ_disc(cx, cy, r)` (R95), with `XM(j)` the greatest `x` of `Q(r)` in row `j`. -/
def seqDisc (cx cy r : Int) : List Pixel := spanFill cx cy r (rowMax (quarter r))

/-- The preconditions of R98, in their order: the fault the command takes, if any. -/
def circleFault (r : Ras) (cx cy radius : Int) : Option FaultCode :=
  if radius < 0 then some .negRadius
  else if extentOnSurface r.lw r.lh cx cy radius radius = false then some .outOfBounds
  else none

/-- `CIRCLE` (R91, R98). -/
def execCircle (cx cy radius d : Field16) (color : Color) (s : State) : Out :=
  let c := rasWord 0x02 false color cx cy radius d
  rasAccept c (fun r =>
    match circleFault r (signed cx) (signed cy) (signed radius) with
    | some f => rasRaise f c.cmdValue r
    | none => rasBegin (seqCircle (signed cx) (signed cy) (signed radius)) r) s

/-- `CIRCLE.F` (R97, R98). -/
def execCircleF (cx cy radius d : Field16) (color : Color) (s : State) : Out :=
  let c := rasWord 0x02 true color cx cy radius d
  rasAccept c (fun r =>
    match circleFault r (signed cx) (signed cy) (signed radius) with
    | some f => rasRaise f c.cmdValue r
    | none => rasBegin (seqDisc (signed cx) (signed cy) (signed radius)) r) s

end Sys2Proof.Machine
end

