-- ==== Sys2Proof/Machine/Ellipse.lean ====
section
/-! DEFINITION. The meanings of `ELLIPSE` and `ELLIPSE.F` (43_ellipse). -/

namespace Sys2Proof.Machine

/-- `F1` (R107): `4*E(x+1, y-1/2)`. -/
def ellipseF1 (a2 b2 x y : Int) : Int :=
  4 * b2 * (x + 1) * (x + 1) + a2 * (2 * y - 1) * (2 * y - 1) - 4 * a2 * b2

/-- `F2` (R107): `4*E(x+1/2, y-1)`. -/
def ellipseF2 (a2 b2 x y : Int) : Int :=
  b2 * (2 * x + 1) * (2 * x + 1) + 4 * a2 * (y - 1) * (y - 1) - 4 * a2 * b2

/-- Region 1 of R107, with fuel: the points visited and the `(x, y)` that first fails the region's test. -/
def region1 (a2 b2 : Int) : Nat → Int → Int → List Pixel × Pixel
  | 0, x, y => ([], { x := x, y := y })
  | n + 1, x, y =>
    if b2 * x < a2 * y then
      let y' := if ellipseF1 a2 b2 x y ≥ 0 then y - 1 else y
      let rest := region1 a2 b2 n (x + 1) y'
      ({ x := x, y := y } :: rest.1, rest.2)
    else ([], { x := x, y := y })

/-- Region 2 of R107, `n` visits: `y` falls by 1 from one visit to the next, so from row `y` there are `y + 1` of them. -/
def region2 (a2 b2 : Int) : Nat → Int → Int → List Pixel
  | 0, _, _ => []
  | n + 1, x, y =>
    { x := x, y := y } :: region2 a2 b2 n (if ellipseF2 a2 b2 x y ≤ 0 then x + 1 else x) (y - 1)

/-- The tip completion of R107: `(t, 0)` for `t` from `xl + 1` to `rx`. -/
def tipCompletion (xl rx : Int) : List Pixel := (span (xl + 1) rx).map fun t => { x := t, y := 0 }

/-- The fuel of region 1. A visit has `b2*x < a2*y <= a2*ry` with `b2 >= 1`, so `x < a2*ry`: the loop cannot run longer
(notes/assumptions/20.md). -/
def region1Fuel (rx ry : Int) : Nat := (rx * rx * ry).toNat + 1

/-- `QUAD(rx, ry)` for `rx >= 1` and `ry >= 1` (R107). -/
def quadWalk (rx ry : Int) : List Pixel :=
  let a2 := rx * rx
  let b2 := ry * ry
  let one := region1 a2 b2 (region1Fuel rx ry) 0 ry
  let two := region2 a2 b2 (one.2.y + 1).toNat one.2.x one.2.y
  let xl := (two.getLast?.getD one.2).x
  one.1 ++ two ++ tipCompletion xl rx

/-- `QUAD(rx, ry)` with the degenerate case (R107, R108). -/
def quad (rx ry : Int) : List Pixel :=
  if rx = 0 ∨ ry = 0 then [{ x := 0, y := 0 }] else quadWalk rx ry

/-- `PLOT4(cx, cy, x, y)` (R109). -/
def plot4 (cx cy : Int) (p : Pixel) : List Pixel :=
  firstOccurrences
    [{ x := cx + p.x, y := cy + p.y }, { x := cx - p.x, y := cy + p.y },
     { x := cx + p.x, y := cy - p.y }, { x := cx - p.x, y := cy - p.y }]

/-- `SEQ_ellipse(cx, cy, rx, ry)` (R109). -/
def seqEllipse (cx cy rx ry : Int) : List Pixel := (quad rx ry).flatMap (plot4 cx cy)

/-- An effective extent (R111, R114): 0 when either half-axis is 0. -/
def effectiveExtent (rx ry e : Int) : Int := if rx = 0 ∨ ry = 0 then 0 else e

/-- `SEQ_ellipse_filled(cx, cy, rx, ry)` (R111), with `XE(j)` the greatest `x` of `QUAD` in row `j`. -/
def seqEllipseFilled (cx cy rx ry : Int) : List Pixel :=
  spanFill cx cy (effectiveExtent rx ry ry) (rowMax (quad rx ry))

/-- The preconditions of R114, in their order: the fault the command takes, if any. -/
def ellipseFault (r : Ras) (cx cy rx ry : Int) : Option FaultCode :=
  if rx < 0 ∨ ry < 0 then some .negRadius
  else if extentOnSurface r.lw r.lh cx cy (effectiveExtent rx ry rx) (effectiveExtent rx ry ry) = false then
    some .outOfBounds
  else none

/-- `ELLIPSE` (R106, R114). -/
def execEllipse (cx cy rx ry : Field16) (color : Color) (s : State) : Out :=
  let c := rasWord 0x03 false color cx cy rx ry
  rasAccept c (fun r =>
    match ellipseFault r (signed cx) (signed cy) (signed rx) (signed ry) with
    | some f => rasRaise f c.cmdValue r
    | none => rasBegin (seqEllipse (signed cx) (signed cy) (signed rx) (signed ry)) r) s

/-- `ELLIPSE.F` (R113, R114). -/
def execEllipseF (cx cy rx ry : Field16) (color : Color) (s : State) : Out :=
  let c := rasWord 0x03 true color cx cy rx ry
  rasAccept c (fun r =>
    match ellipseFault r (signed cx) (signed cy) (signed rx) (signed ry) with
    | some f => rasRaise f c.cmdValue r
    | none => rasBegin (seqEllipseFilled (signed cx) (signed cy) (signed rx) (signed ry)) r) s

end Sys2Proof.Machine
end

