-- ==== Sys2Proof/Machine/Line.lean ====
section
/-! DEFINITION. The meaning of `LINE` (41_line). -/

namespace Sys2Proof.Machine

/-- `emit(x, y)` (R77): transposed back if the line is steep. -/
def lineEmit (steep : Bool) (x y : Int) : Pixel := if steep then { x := y, y := x } else { x := x, y := y }

/-- The loop of R77, `n` iterations still to go from `(x, y)` with the decision variable `delta`. -/
def lineWalk (steep : Bool) (dx dy ystep : Int) : Nat → Int → Int → Int → List Pixel
  | 0, _, _, _ => []
  | n + 1, x, y, delta =>
    let y' := if delta > 0 then y + ystep else y
    let delta' := if delta > 0 then delta + 2 * (dy - dx) else delta + 2 * dy
    lineEmit steep (x + 1) y' :: lineWalk steep dx dy ystep n (x + 1) y' delta'

/-- The walk of R77 after the transposition: `(x1, y1)` to `(x2, y2)`, ends exchanged if `x1 > x2`, the start pixel before
the loop, `sign(y2 - y1)` of the values after both exchanges. -/
def lineFrom (steep : Bool) (dx dy x1 y1 x2 y2 : Int) : List Pixel :=
  let xa := if x1 > x2 then x2 else x1
  let ya := if x1 > x2 then y2 else y1
  let yb := if x1 > x2 then y1 else y2
  lineEmit steep xa ya :: lineWalk steep dx dy (yb - ya).sign dx.toNat xa ya (2 * dy - dx)

/-- `SEQ_line(x1, y1, x2, y2)` (R77). -/
def seqLine (x1 y1 x2 y2 : Int) : List Pixel :=
  let dx : Int := (x2 - x1).natAbs
  let dy : Int := (y2 - y1).natAbs
  if dy > dx then lineFrom true dy dx y1 x1 y2 x2 else lineFrom false dx dy x1 y1 x2 y2

/-- `LINE` (R76, R82). -/
def execLine (x1 y1 x2 y2 : Field16) (color : Color) (s : State) : Out :=
  let c := rasWord 0x01 false color x1 y1 x2 y2
  rasAccept c (fun r =>
    if cornersOnSurface r.lw r.lh (signed x1) (signed y1) (signed x2) (signed y2) then
      rasBegin (seqLine (signed x1) (signed y1) (signed x2) (signed y2)) r
    else rasRaise .outOfBounds c.cmdValue r) s

end Sys2Proof.Machine
end

