-- ==== Sys2Proof/Machine/Pack.lean ====
section
/-! DEFINITION. The meaning of `PACK565` (40_pack565). -/

namespace Sys2Proof.Machine

/-- `pack565` (R70, R71): `((r8 >> 3) << 11) | ((g8 >> 2) << 5) | (b8 >> 3)` on 16 bits; truncates, never rounds. -/
def pack565 (r8 g8 b8 : Byte) : Color :=
  ((r8.setWidth 16 >>> 3) <<< 11) ||| ((g8.setWidth 16 >>> 2) <<< 5) ||| (b8.setWidth 16 >>> 3)

/-- `PACK565` (R70): the result and `DONE` in the accept step itself; the Surface and its dimensions play no part. -/
def execPack565 (r8 g8 b8 : Byte) (unused : BitVec 40) (color : Color) (s : State) : Out :=
  rasAccept (packWord r8 g8 b8 unused color) (fun r => { r with result := pack565 r8 g8 b8, done := true }) s

end Sys2Proof.Machine
end

