-- ==== Sys2Proof/Machine/Rect.lean ====
section
/-! DEFINITION. The meanings of `RECT` and `RECT.F` (44_rect). -/

namespace Sys2Proof.Machine

/-- `SEQ_rect` of the corners `(xa, ya)` and `(xb, yb)` with `xa <= xb` and `ya <= yb` (R122). -/
def rectOutline (xa ya xb yb : Int) : List Pixel :=
  (span xa xb).map (fun x => { x := x, y := ya })
    ++ (if yb > ya then (span xa xb).map (fun x => { x := x, y := yb }) else [])
    ++ (span (ya + 1) (yb - 1)).map (fun y => { x := xa, y := y })
    ++ (if xb > xa then (span (ya + 1) (yb - 1)).map (fun y => { x := xb, y := y }) else [])

/-- `SEQ_rect(x1, y1, x2, y2)` (R120, R122). -/
def seqRect (x1 y1 x2 y2 : Int) : List Pixel := rectOutline (min x1 x2) (min y1 y2) (max x1 x2) (max y1 y2)

/-- `SEQ_rect_filled(x1, y1, x2, y2)` (R120, R123). -/
def seqRectFilled (x1 y1 x2 y2 : Int) : List Pixel :=
  (span (min y1 y2) (max y1 y2)).flatMap fun y =>
    (span (min x1 x2) (max x1 x2)).map fun x => { x := x, y := y }

/-- `RECT` (R121, R126). -/
def execRect (x1 y1 x2 y2 : Field16) (color : Color) (s : State) : Out :=
  let c := rasWord 0x04 false color x1 y1 x2 y2
  rasAccept c (fun r =>
    if cornersOnSurface r.lw r.lh (signed x1) (signed y1) (signed x2) (signed y2) then
      rasBegin (seqRect (signed x1) (signed y1) (signed x2) (signed y2)) r
    else rasRaise .outOfBounds c.cmdValue r) s

/-- `RECT.F` (R125, R126). -/
def execRectF (x1 y1 x2 y2 : Field16) (color : Color) (s : State) : Out :=
  let c := rasWord 0x04 true color x1 y1 x2 y2
  rasAccept c (fun r =>
    if cornersOnSurface r.lw r.lh (signed x1) (signed y1) (signed x2) (signed y2) then
      rasBegin (seqRectFilled (signed x1) (signed y1) (signed x2) (signed y2)) r
    else rasRaise .outOfBounds c.cmdValue r) s

end Sys2Proof.Machine
end

