-- ==== Sys2Proof/Machine/RegDev.lean ====
section
/-! DEFINITION. The meanings of `RDBYTE`, `WRBYTE`, `RDPAIR` and `RDBLOCK` (45_regdev): the accept step of each (`exec…`, R132)
and its response steps (`…Response`, R133). -/

namespace Sys2Proof.Machine

/-! ### Transfers (R132, R134 to R138) -/

/-- First transfer of `RDBYTE` (R134). -/
def rdbyteWrite (addr : Byte) : List Byte := [cmdbyte Config.byteWiseFlag addr]
/-- The transfer of `WRBYTE` (R135). -/
def wrbyteWrite (addr value : Byte) : List Byte := [cmdbyte Config.byteWiseFlag addr, value]
/-- First transfer of `RDPAIR` (R136). -/
def rdpairWrite (lowAddr : Byte) : List Byte := [cmdbyte Config.byteWiseFlag lowAddr]
/-- Third transfer of `RDPAIR` (R136, R137): the address is incremented modulo 256 before the OR. -/
def rdpairWrite2 (lowAddr : Byte) : List Byte := [cmdbyte Config.byteWiseFlag (lowAddr + 1)]
/-- First transfer of `RDBLOCK` (R138): the count byte is always sent. -/
def rdblockWrite (blockAddr count : Byte) : List Byte := [cmdbyte Config.blockWiseFlag blockAddr, count]

/-! ### Accept steps -/

/-- `RDBYTE` (R132, R134). -/
def execRdbyte (addr opd : Byte) (s : State) : Out :=
  .next (rdvIssue (rdvWord 0x10 addr opd) (rdbyteWrite addr) s)

/-- `WRBYTE` (R132, R135). -/
def execWrbyte (addr value : Byte) (s : State) : Out :=
  .next (rdvIssue (rdvWord 0x11 addr value) (wrbyteWrite addr value) s)

/-- `RDPAIR` (R132, R136). -/
def execRdpair (lowAddr opd : Byte) (s : State) : Out :=
  .next (rdvIssue (rdvWord 0x12 lowAddr opd) (rdpairWrite lowAddr) s)

/-- `RDBLOCK` (R132, R138). A count that is 0 or above `BLOCK_MAX` is no legal command (R62, R171). -/
def execRdblock (blockAddr count : Byte) (s : State) : Out :=
  if (Instr.rdblock blockAddr count).wellFormed then
    .next (rdvIssue (rdvWord 0x13 blockAddr count) (rdblockWrite blockAddr count) s)
  else rdvIllegal (rdvWord 0x13 blockAddr count) s

/-! ### Response steps (R133) -/

/-- `RDBYTE`: the write, then one byte into `RDV_DATA`. -/
def rdbyteResponse (addr : Byte) (ph : Phase) (a : BusAnswer) (s : State) : Out :=
  match ph, a with
  | .w1, .count k => .next (afterWrite (rdbyteWrite addr).length false k (rdvRequest .r1 (.read 1)) s)
  | .r1, .bytes bs => .next (afterRead 1 false bs (rdvFinishData ((bs.headD 0).setWidth 16)) s)
  | _, _ => .fault .rdvPhase

/-- `WRBYTE`: one transfer, no result. -/
def wrbyteResponse (addr value : Byte) (ph : Phase) (a : BusAnswer) (s : State) : Out :=
  match ph, a with
  | .w1, .count k =>
    .next (afterWrite (wrbyteWrite addr value).length false k (fun t => { t with rdv := rdvFinish t.rdv }) s)
  | _, _ => .fault .rdvPhase

/-- `RDPAIR`: two complete byte reads, `low | (high << 8)`. -/
def rdpairResponse (lowAddr : Byte) (ph : Phase) (a : BusAnswer) (s : State) : Out :=
  match ph, a with
  | .w1, .count k => .next (afterWrite (rdpairWrite lowAddr).length false k (rdvRequest .r1 (.read 1)) s)
  | .r1, .bytes bs =>
    .next (afterRead 1 false bs (fun t =>
      rdvRequest .w2 (.write (rdpairWrite2 lowAddr)) { t with rdv := { t.rdv with lo := bs.headD 0 } }) s)
  | .w2, .count k => .next (afterWrite (rdpairWrite2 lowAddr).length true k (rdvRequest .r2 (.read 1)) s)
  | .r2, .bytes bs =>
    .next (afterRead 1 true bs
      (rdvFinishData (s.rdv.lo.setWidth 16 ||| ((bs.headD 0).setWidth 16 <<< 8))) s)

  | _, _ => .fault .rdvPhase

/-- `RDBLOCK`: the write, then `count` bytes into the block buffer. -/
def rdblockResponse (blockAddr count : Byte) (ph : Phase) (a : BusAnswer) (s : State) : Out :=
  match ph, a with
  | .w1, .count k =>
    .next (afterWrite (rdblockWrite blockAddr count).length false k (rdvRequest .r1 (.read count.toNat)) s)
  | .r1, .bytes bs =>
    .next (afterRead count.toNat false bs (fun t =>
      { t with rdv := rdvFinish { t.rdv with buf := storeBlock bs t.rdv.buf } }) s)
  | _, _ => .fault .rdvPhase

/-- The response step of the command `i` in flight (R133). A RAS command is never in flight in unit RDV. -/
def rdvResponse (i : Instr) (ph : Phase) (a : BusAnswer) (s : State) : Out :=
  match i with
  | .rdbyte addr _ => rdbyteResponse addr ph a s
  | .wrbyte addr value => wrbyteResponse addr value ph a s
  | .rdpair lowAddr _ => rdpairResponse lowAddr ph a s
  | .rdblock blockAddr count => rdblockResponse blockAddr count ph a s
  | _ => .fault .rdvPhase

end Sys2Proof.Machine
end

