-- ==== Sys2Proof/Machine/Dispatch.lean ====
section
/-! DEFINITION. One arm per constructor of `Instr`: the command's accept step, or its being dropped. -/

namespace Sys2Proof.Machine

def exec (i : Instr) (s : State) : Host.Outcome State Fault Refusal :=
  match i with
  | .line x1 y1 x2 y2 color => Sys2Proof.Machine.execLine x1 y1 x2 y2 color s
  | .circle cx cy radius d color => Sys2Proof.Machine.execCircle cx cy radius d color s
  | .circleF cx cy radius d color => Sys2Proof.Machine.execCircleF cx cy radius d color s
  | .ellipse cx cy rx ry color => Sys2Proof.Machine.execEllipse cx cy rx ry color s
  | .ellipseF cx cy rx ry color => Sys2Proof.Machine.execEllipseF cx cy rx ry color s
  | .rect x1 y1 x2 y2 color => Sys2Proof.Machine.execRect x1 y1 x2 y2 color s
  | .rectF x1 y1 x2 y2 color => Sys2Proof.Machine.execRectF x1 y1 x2 y2 color s
  | .pack565 r8 g8 b8 unused color => Sys2Proof.Machine.execPack565 r8 g8 b8 unused color s
  | .rdbyte addr opd => Sys2Proof.Machine.execRdbyte addr opd s
  | .wrbyte addr value => Sys2Proof.Machine.execWrbyte addr value s
  | .rdpair lowAddr opd => Sys2Proof.Machine.execRdpair lowAddr opd s
  | .rdblock blockAddr count => Sys2Proof.Machine.execRdblock blockAddr count s

end Sys2Proof.Machine
end

