-- ==== Sys2Proof/Machine/Port.lean ====
section
/-! DEFINITION. The two host ports (R10, R11, R26), the Bus provider's answers (R133), the reset input (R195), other agents'
Surface writes (R49), and the schedule that orders them (R10). -/

namespace Sys2Proof.Machine

/-! ### Register maps -/

/-- The registers of unit RAS (R11). -/
inductive RasReg where
  | status | errcode | errinfo | ctrl | surfW | surfH | arg0 | arg1 | cmd | result | pixcnt
  deriving DecidableEq, Repr

/-- The registers of unit RDV (R26); `buf n` is `RDV_BUF<n>`. -/
inductive RdvReg where
  | status | errcode | errinfo | ctrl | cmd | data | xfer
  | buf (n : Fin 8)
  deriving DecidableEq, Repr

/-- The register map of unit RAS (R11), by byte offset. -/
def rasMap : List (Nat × RasReg) :=
  [(0x00, .status), (0x04, .errcode), (0x08, .errinfo), (0x0C, .ctrl), (0x10, .surfW), (0x14, .surfH),
   (0x18, .arg0), (0x1C, .arg1), (0x20, .cmd), (0x24, .result), (0x28, .pixcnt)]

/-- The register map of unit RDV (R26, R32), by byte offset. -/
def rdvMap : List (Nat × RdvReg) :=
  [(0x00, .status), (0x04, .errcode), (0x08, .errinfo), (0x0C, .ctrl), (0x10, .cmd), (0x14, .data), (0x18, .xfer),
   (0x20, .buf 0), (0x24, .buf 1), (0x28, .buf 2), (0x2C, .buf 3),
   (0x30, .buf 4), (0x34, .buf 5), (0x38, .buf 6), (0x3C, .buf 7)]

/-- The register of unit RAS at an offset; `none` at an offset with no register. -/
def rasRegAt (o : Offset) : Option RasReg := rasMap.lookup (4 * o.toNat)

/-- The register of unit RDV at an offset; `none` at an offset with no register. -/
def rdvRegAt (o : Offset) : Option RdvReg := rdvMap.lookup (4 * o.toNat)

/-! ### Host reads -/

/-- The value of a RAS register (R11 to R17); `RAS_CTRL` reads 0. -/
def readRasReg (r : Ras) : RasReg → Word
  | .status => statusWord r.busy r.done r.err r.ovr
  | .errcode => errcodeWord r.errcode
  | .errinfo => r.errinfo
  | .ctrl => 0
  | .surfW => r.surfW
  | .surfH => r.surfH
  | .arg0 => r.arg0
  | .arg1 => r.arg1
  | .cmd => r.lcmd.cmdValue
  | .result => r.result.setWidth 32
  | .pixcnt => r.pixcnt

/-- `RDV_BUF<n> = {BUF[4n+3], BUF[4n+2], BUF[4n+1], BUF[4n]}` (R32). -/
def bufWord (buf : Vector Byte 32) (n : Fin 8) : Word :=
  buf[4 * n.val + 3] ++ buf[4 * n.val + 2] ++ buf[4 * n.val + 1] ++ buf[4 * n.val]

/-- The value of an RDV register (R26 to R32); `RDV_CTRL` reads 0. -/
def readRdvReg (r : Rdv) : RdvReg → Word
  | .status => statusWord r.busy r.done r.err r.ovr
  | .errcode => errcodeWord r.errcode
  | .errinfo => r.errinfo
  | .ctrl => 0
  | .cmd => r.lrc
  | .data => r.data.setWidth 32
  | .xfer => xferWord r.xfer
  | .buf n => bufWord r.buf n

/-- `HostRead(unit, off)` (R10): 0 at an offset with no register. -/
def hostRead (u : HostUnit) (o : Offset) (s : State) : Word :=
  match u with
  | .ras => ((rasRegAt o).map (readRasReg s.ras)).getD 0
  | .rdv => ((rdvRegAt o).map (readRdvReg s.rdv)).getD 0

/-! ### Host writes -/

/-- The write of `v` to `RAS_CMD` (R20, R24): the command word is formed from the operand registers and decoded. A legal word
is the command `exec` gives its meaning; any other faults (R171). -/
def rasCommand (v : Word) (s : State) : Out :=
  match decodeRas (rasWordOf s.ras.arg1 s.ras.arg0 v) with
  | .ok i => exec i s
  | .error _ => rasIllegal (rasWordOf s.ras.arg1 s.ras.arg0 v) s

/-- The write of `v` to `RDV_CMD` (R30, R132). -/
def rdvCommand (v : Word) (s : State) : Out :=
  match decodeRdv v with
  | .ok i => exec i s
  | .error _ => rdvIllegal v s

/-- `HostWrite(RAS, off, v)` (R10, R14 to R16): nothing at an offset with no register and at a read-only register. -/
def writeRas (o : Offset) (v : Word) (s : State) : Out :=
  match rasRegAt o with
  | some .ctrl => .next { s with ras := rasCtrl v s.ras }
  | some .surfW => .next { s with ras := { s.ras with surfW := v } }
  | some .surfH => .next { s with ras := { s.ras with surfH := v } }
  | some .arg0 => .next { s with ras := { s.ras with arg0 := v } }
  | some .arg1 => .next { s with ras := { s.ras with arg1 := v } }
  | some .cmd => rasCommand v s
  | some .status | some .errcode | some .errinfo | some .result | some .pixcnt | none => .next s

/-- `HostWrite(RDV, off, v)` (R10, R29, R30). -/
def writeRdv (o : Offset) (v : Word) (s : State) : Out :=
  match rdvRegAt o with
  | some .ctrl => .next (rdvCtrl v s)
  | some .cmd => rdvCommand v s
  | some .status | some .errcode | some .errinfo | some .data | some .xfer | some (.buf _) | none => .next s

/-- `HostWrite(unit, off, v)` (R10). -/
def hostWrite (u : HostUnit) (o : Offset) (v : Word) (s : State) : Out :=
  match u with
  | .ras => writeRas o v s
  | .rdv => writeRdv o v s

/-! ### The other agents -/

/-- The Bus provider answers request number `req` (R131, R133). An answer to a request that is not outstanding any more is
discarded (R183, R196). -/
def takeAnswer (req : Nat) (a : BusAnswer) (s : State) : Out :=
  if s.rdv.busy = true ∧ req + 1 = s.bus.trace.length then
    match s.bus.trace[req]? with
    | some q =>
      if BusAnswer.fits q a then
        match s.rdv.ph, decodeRdv s.rdv.lrc with
        | some ph, .ok i => rdvResponse i ph a s
        | _, _ => .fault .rdvPhase
      else .refused .busAnswerShape
    | none => .fault .rdvPhase
  else .next s

/-- The reset input (R195 to R197): both units to their reset values; the Surface, the bus and the schedule stay. -/
def resetInput (s : State) : State := { s with ras := Ras.reset, rdv := Rdv.reset }

/-- Another agent writes the Surface (R49, U4): refused while a drawing command is in progress. -/
def otherSurfaceWrite (idx : Nat) (v : Color) (s : State) : Out :=
  if s.ras.busy then .refused .concurrentSurfaceWriter
  else if s.surface.size ≤ idx then .fault .pixelOutsideStore
  else .next { s with surface := s.surface.write idx v }

/-- One action of one agent. -/
def perform (e : Event) (s : State) : Out :=
  match e with
  | .hostWrite u o v => hostWrite u o v s
  | .hostRead u o => .next { s with readData := hostRead u o s }
  | .rasTurn => rasTurn s
  | .busAnswer req a => takeAnswer req a s
  | .reset => .next (resetInput s)
  | .surfaceWrite idx v => otherSurfaceWrite idx v s

/-- The next action of the schedule is taken and removed; when there is none the RAS engine has its turn (R190, R207). -/
def advance (s : State) : Out :=
  match s.script with
  | [] => rasTurn s
  | e :: rest => perform e { s with script := rest }

/-- The host puts a command where the next step takes it: the operand registers of a RAS word are loaded (R55, R64) and the
write of the unit's `CMD` register becomes the next action of the schedule (notes/assumptions/3.md). -/
def placeCommand (w : CommandWord) (s : State) : State :=
  match w with
  | .ras c => { s with
      ras := { s.ras with arg0 := c.arg0, arg1 := c.arg1 }
      script := .hostWrite .ras (off 0x20) c.cmdValue :: s.script }
  | .rdv v => { s with script := .hostWrite .rdv (off 0x10) v :: s.script }

end Sys2Proof.Machine
end

