-- ==== Sys2Proof/Machine/Step.lean ====
section
/-! DEFINITION. One step of the machine, and where the next command is taken from. -/

namespace Sys2Proof.Machine

/-- One step: the next action of the schedule (R10), or the RAS engine's turn (notes/assumptions/1.md). -/
def step (s : State) : Host.Outcome State Fault Refusal := advance s

/-- `s` with the command of a word of the opcode table placed where the very next step takes it. -/
def State.withFetchWord (s : State) (nbits w : Nat) : State := placeCommand (tableCommand nbits w) s

end Sys2Proof.Machine
end

