-- ==== Sys2Proof/Machine/Assembler.lean ====
section
/-! DEFINITION. The textual form of FRC-1 (R64 to R68): lines, directives and pseudo-instructions as host actions; the host's
polling loop `WAIT`; and the platform's placing of the register blocks (R10, R40). -/

namespace Sys2Proof.Machine

/-- One host operation of a program (R66). -/
inductive HostOp where
  | write (unit : HostUnit) (off : Offset) (v : Word)
  | read (unit : HostUnit) (off : Offset)
  /-- `WAIT unit` -/
  | wait (unit : HostUnit)
  deriving DecidableEq, Repr

/-- A line of an assembly program (R64 to R67). Numbers are as written, not yet checked against their range. -/
inductive AsmLine where
  | line (x1 y1 x2 y2 color : Int)
  | circle (cx cy radius color : Int)
  | circleF (cx cy radius color : Int)
  | ellipse (cx cy rx ry color : Int)
  | ellipseF (cx cy rx ry color : Int)
  | rect (x1 y1 x2 y2 color : Int)
  | rectF (x1 y1 x2 y2 color : Int)
  | pack565 (r8 g8 b8 : Int)
  | rdbyte (addr : Int)
  | wrbyte (addr value : Int)
  | rdpair (lowAddr : Int)
  | rdblock (blockAddr count : Int)
  | setsurf (w h : Word)
  | wait (unit : HostUnit)
  | clrerr (unit : HostUnit)
  | clrdone (unit : HostUnit)
  | clrovr (unit : HostUnit)
  | abort
  | read (unit : HostUnit) (off : Offset)
  | point (x y color : Int)
  | clear (color : Int)
  | hline (x1 x2 y color : Int)
  | vline (x y1 y2 color : Int)
  | disc (cx cy radius color : Int)
  deriving DecidableEq, Repr

/-- The expansion of a pseudo-instruction (R67), for a host that has set the dimensions `w`, `h`. `CLEAR` needs both to be 1 to
32768, and the spec does not say what happens otherwise. DESIGN CHOICE, unsafe (notes/assumptions/23.md): it stays the command on
the right: with a dimension of 0 a corner is -1, and that `RECT.F` is issued and takes `OutOfBounds`; above 32768 a corner is out of
an operand's range (R64), and the assembler rejects the line. -/
def AsmLine.expand (w h : Word) : AsmLine → AsmLine
  | .point x y color => .line x y x y color
  | .clear color => .rectF 0 0 (dim w - 1) (dim h - 1) color
  | .hline x1 x2 y color => .line x1 y x2 y color
  | .vline x y1 y2 color => .line x y1 x y2 color
  | .disc cx cy radius color => .circleF cx cy radius color
  | l => l

/-- A number in `lo` to `hi` as a field of `n` bits; the assembler rejects any other (R64: "it does not wrap it"). -/
def asmField (n : Nat) (lo hi v : Int) : Option (BitVec n) :=
  if lo ≤ v ∧ v ≤ hi then some (BitVec.ofInt n v) else none

/-- A coordinate or radius operand (R64). -/
def asmCoord (v : Int) : Option Field16 := asmField 16 (-32768) 32767 v
/-- A colour operand (R64). -/
def asmColor (v : Int) : Option Color := asmField 16 0 65535 v
/-- An 8-bit operand (R64, R65). -/
def asmByte (v : Int) : Option Byte := asmField 8 0 255 v

/-- A line of four coordinates and a colour. -/
def asmShape (f : Field16 → Field16 → Field16 → Field16 → Color → Instr) (a b c d color : Int) : Option Instr := do
  return f (← asmCoord a) (← asmCoord b) (← asmCoord c) (← asmCoord d) (← asmColor color)

/-- The instruction of a command line (R64, R65): ignored fields are written as 0 (R60). -/
def AsmLine.instr : AsmLine → Option Instr
  | .line x1 y1 x2 y2 color => asmShape .line x1 y1 x2 y2 color
  | .circle cx cy radius color => asmShape .circle cx cy radius 0 color
  | .circleF cx cy radius color => asmShape .circleF cx cy radius 0 color
  | .ellipse cx cy rx ry color => asmShape .ellipse cx cy rx ry color
  | .ellipseF cx cy rx ry color => asmShape .ellipseF cx cy rx ry color
  | .rect x1 y1 x2 y2 color => asmShape .rect x1 y1 x2 y2 color
  | .rectF x1 y1 x2 y2 color => asmShape .rectF x1 y1 x2 y2 color
  | .pack565 r8 g8 b8 => do return .pack565 (← asmByte r8) (← asmByte g8) (← asmByte b8) 0 0
  | .rdbyte addr => do return .rdbyte (← asmByte addr) 0
  | .wrbyte addr value => do return .wrbyte (← asmByte addr) (← asmByte value)
  | .rdpair lowAddr => do return .rdpair (← asmByte lowAddr) 0
  | .rdblock blockAddr count => do return .rdblock (← asmByte blockAddr) (← asmByte count)
  | _ => none

/-- The host writes that issue an instruction: three for RAS, operands first (R64), one for RDV (R65). -/
def issueOps (i : Instr) : List HostOp :=
  match encode i with
  | .ras c => [.write .ras (off 0x18) c.arg0, .write .ras (off 0x1C) c.arg1, .write .ras (off 0x20) c.cmdValue]
  | .rdv v => [.write .rdv (off 0x10) v]

/-- The host operations of a line (R64 to R67), for a host that has set the dimensions `w`, `h`; `none` where the assembler
rejects a number. -/
def AsmLine.ops (w h : Word) (l : AsmLine) : Option (List HostOp) :=
  match l with
  | .setsurf sw sh => some [.write .ras (off 0x10) sw, .write .ras (off 0x14) sh]
  | .wait u => some [.wait u]
  | .clrerr u => some [.write u (off 0x0C) 1]
  | .clrdone u => some [.write u (off 0x0C) 2]
  | .clrovr u => some [.write u (off 0x0C) 4]
  | .abort => some [.write .rdv (off 0x0C) 8]
  | .read u o => some [.read u o]
  | other => ((other.expand w h).instr).map issueOps

/-! ### Named constants (R68) -/

/-- Register addresses of the example device (R68, R156). -/
def control : Byte := 0x00
def timing : Byte := 0x01
def gain : Byte := 0x07
def datablock : Byte := 0x0F
def data1low : Byte := 0x10
def data1high : Byte := 0x11
def data2low : Byte := 0x12
def data2high : Byte := 0x13
def data3low : Byte := 0x14
def data3high : Byte := 0x15
def data4low : Byte := 0x16
def data4high : Byte := 0x17

/-- `POWER_ON_AND_ADC_ENABLE` (R68, R156). -/
def powerOnAndAdcEnable : Byte := 0x03

/-- The named colours (R68, R72). -/
def red : Color := 0xF800
def green : Color := 0x07E0
def blue : Color := 0x001F
def white : Color := 0xFFFF
def black : Color := 0x0000

/-! ### The host at work -/

/-- One action ahead of those already scheduled. -/
def act (e : Event) (s : State) : Out := step { s with script := e :: s.script }

/-- One poll of `WAIT` (R66): `HostRead(unit, 0x00)`, then bit 0 of the value read. -/
def pollBusy (u : HostUnit) (s : State) : Host.Outcome (State × Bool) Fault Refusal :=
  match act (.hostRead u (off 0x00)) s with
  | .next t => .next (t, t.readData.getLsbD 0)
  | .fault f => .fault f
  | .refused r => .refused r

/-- `WAIT RAS` (R66) under a schedule that gives the engine one turn between two polls, for at most `n` turns: polls until one
reads `BUSY` = 0. The flag returned is that of the last poll: true if the turns ran out while `BUSY` was still 1. -/
def waitRas : Nat → State → Host.Outcome (State × Bool) Fault Refusal
  | 0, s => pollBusy .ras s
  | n + 1, s =>
    match pollBusy .ras s with
    | .next (t, true) =>
      match act .rasTurn t with
      | .next u => waitRas n u
      | .fault f => .fault f
      | .refused r => .refused r
    | stop => stop

/-- How `WAIT RDV` ends: the machine, the answers left over, and the `BUSY` that the last poll read. -/
structure RdvWait where
  state : State
  answers : List BusAnswer
  busy : Bool
  deriving DecidableEq, Repr

/-- `WAIT RDV` (R66) with a provider that gives the answers of a list in order, one between two polls: polls until one reads
`BUSY` = 0. If the list runs out first, the last poll still read 1 (R141). -/
def waitRdv : List BusAnswer → State → Host.Outcome RdvWait Fault Refusal
  | [], s =>
    match pollBusy .rdv s with
    | .next (t, busy) => .next { state := t, answers := [], busy := busy }
    | .fault f => .fault f
    | .refused r => .refused r
  | a :: rest, s =>
    match pollBusy .rdv s with
    | .next (t, true) =>
      match act (.busAnswer (t.bus.trace.length - 1) a) t with
      | .next u => waitRdv rest u
      | .fault f => .fault f
      | .refused r => .refused r
    | .next (t, false) => .next { state := t, answers := a :: rest, busy := false }
    | .fault f => .fault f
    | .refused r => .refused r

/-- The register a platform address names (R10, R40): the unit whose block holds it and the register's offset; `none` where
the address is in neither block or is not a multiple of 4 from the base (R45: such an access never reaches the block).
DESIGN CHOICE, unsafe (notes/assumptions/22.md): the spec does not say that the platform places the two blocks apart; an address
that both hold names the register of unit RAS. -/
def Platform.register (pf : Platform) (addr : Nat) : Option (HostUnit × Offset) :=
  if pf.rasBase ≤ addr ∧ addr < pf.rasBase + 0x40 ∧ (addr - pf.rasBase) % 4 = 0 then
    some (.ras, off (addr - pf.rasBase))
  else if pf.rdvBase ≤ addr ∧ addr < pf.rdvBase + 0x40 ∧ (addr - pf.rdvBase) % 4 = 0 then
    some (.rdv, off (addr - pf.rdvBase))
  else none

end Sys2Proof.Machine
end

