-- ==== Sys2Proof/Machine/Sensor.lean ====
section
/-! DEFINITION. The colour-sensor sequences as host procedures over unit RDV (46_sensor_sequences, R155 to R161). They are no
hardware: each takes a state and the answers the Bus provider will give, and returns the outcome, the state and the answers
that are left. -/

namespace Sys2Proof.Machine

/-- How a sensor sequence ends (R155, R157). -/
inductive SensorOutcome (α : Type) where
  | success (v : α)
  /-- the echoed byte is not 0x03 (R157, R175) -/
  | initVerificationFailed
  /-- `ERR = 1` after a command (R155): `RDV_ERRCODE` and `RDV_XFER` as the host reads them -/
  | fault (code xfer : Word)
  /-- the listed answers ran out while `BUSY = 1` (R141) -/
  | waiting
  /-- the machine stopped -/
  | stopped
  deriving DecidableEq, Repr

/-- What a sequence hands on: its outcome, the machine, and the answers the provider has not given yet. -/
structure SensorRun (α : Type) where
  outcome : SensorOutcome α
  state : State
  answers : List BusAnswer

/-- One `HostRead` of an RDV register in a sequence; the sequence goes on with the value read. -/
def sensorRead {α : Type} (b : Nat) (answers : List BusAnswer) (s : State) (next : Word → State → SensorRun α) : SensorRun α :=
  match act (.hostRead .rdv (off b)) s with
  | .next t => next t.readData t
  | _ => { outcome := .stopped, state := s, answers := answers }

/-- One command of a sequence (R155): the write of `RDV_CMD`, `WAIT RDV`, the read of `RDV_STATUS`; the sequence stops if `ERR`
is set (the host then reads `RDV_ERRCODE` and `RDV_XFER`), else it goes on with `next`. -/
def sensorCommand {α : Type} (v : Word) (answers : List BusAnswer) (s : State)
    (next : State → List BusAnswer → SensorRun α) : SensorRun α :=
  match act (.hostWrite .rdv (off 0x10) v) s with
  | .next t =>
    match waitRdv answers t with
    | .next w =>
      if w.busy then { outcome := .waiting, state := w.state, answers := w.answers }
      else
        sensorRead 0x00 w.answers w.state fun status u =>
          if status.getLsbD 2 then
            sensorRead 0x04 w.answers u fun code u1 =>
              sensorRead 0x18 w.answers u1 fun xfer u2 =>
                { outcome := .fault code xfer, state := u2, answers := w.answers }
          else next u w.answers
    | _ => { outcome := .stopped, state := t, answers := answers }
  | _ => { outcome := .stopped, state := s, answers := answers }

/-- `SENSOR.INIT` (R157), with `SEL_CTRL_CMD` as an argument (R158). -/
def sensorInit (selCtrlCmd : Byte) (answers : List BusAnswer) (s : State) : SensorRun Unit :=
  sensorCommand (rdvWord 0x11 control selCtrlCmd) answers s fun s1 a1 =>
    sensorCommand (rdvWord 0x11 control powerOnAndAdcEnable) a1 s1 fun s2 a2 =>
      sensorCommand (rdvWord 0x10 control 0) a2 s2 fun s3 a3 =>
        sensorRead 0x14 a3 s3 fun data s4 =>
          { outcome := if data.extractLsb' 0 8 = powerOnAndAdcEnable then .success () else .initVerificationFailed
            state := s4
            answers := a3 }

/-- The low register of a channel's pair (R159): `BASE + 2*p` with `BASE` = `DATA1LOW`. -/
def channelAddress (m : Chmap) (ch : Channel) : Byte := data1low + BitVec.ofNat 8 (2 * (m.pair ch).val)

/-- `SENSOR.RDCHAN channel` (R159). -/
def sensorRdchan (m : Chmap) (ch : Channel) (answers : List BusAnswer) (s : State) : SensorRun (BitVec 16) :=
  sensorCommand (rdvWord 0x12 (channelAddress m ch) 0) answers s fun s1 a1 =>
    sensorRead 0x14 a1 s1 fun data s2 => { outcome := .success (data.extractLsb' 0 16), state := s2, answers := a1 }

/-- The four values of `SENSOR.RDALL` (R161). -/
structure Reading where
  green : BitVec 16
  red : BitVec 16
  blue : BitVec 16
  clear : BitVec 16
  deriving DecidableEq, Repr

/-- `pair[p]` of R161 from the two buffer registers. -/
def bufferPair (w0 w1 : Word) (p : Fin 4) : BitVec 16 :=
  match p with
  | 0 => w0.extractLsb' 0 16
  | 1 => w0.extractLsb' 16 16
  | 2 => w1.extractLsb' 0 16
  | 3 => w1.extractLsb' 16 16

/-- `SENSOR.RDALL` (R161). -/
def sensorRdall (m : Chmap) (answers : List BusAnswer) (s : State) : SensorRun Reading :=
  sensorCommand (rdvWord 0x13 datablock 8) answers s fun s1 a1 =>
    sensorRead 0x20 a1 s1 fun w0 s2 =>
      sensorRead 0x24 a1 s2 fun w1 s3 =>
        let pair := fun ch => bufferPair w0 w1 (m.pair ch)
        { outcome := .success { green := pair .green, red := pair .red, blue := pair .blue, clear := pair .clear }
          state := s3
          answers := a1 }

end Sys2Proof.Machine
end

