-- ==== Sys2Proof/Safety.lean ====
section
/-! DEFINITION. What a safe run is: the invariants the rules state of every reachable state, in the terms claims use. -/

namespace Sys2Proof.Machine

/-- At most one of `BUSY`, `DONE`, `ERR` is 1 (R12, R27). -/
def flagsExclusive (busy done err : Bool) : Prop := (busy = true → done = false ∧ err = false) ∧ (err = true → done = false)

/-- R12 and R27 in both units. -/
def State.flagsInv (s : State) : Prop :=
  flagsExclusive s.ras.busy s.ras.done s.ras.err ∧ flagsExclusive s.rdv.busy s.rdv.done s.rdv.err

/-- R13 and R176: the code and the info are 0 when `ERR = 0`; a recorded fault of RAS has one of the three codes of the unit
and its info is the command word that is still latched. -/
def Ras.faultInv (r : Ras) : Prop :=
  (r.err = false → r.errcode = .none ∧ r.errinfo = 0) ∧
  (r.err = true →
    (r.errcode = .illegalCmd ∨ r.errcode = .negRadius ∨ r.errcode = .outOfBounds) ∧ r.errinfo = r.lcmd.cmdValue)

/-- R28 and R177: the same for RDV, with `RDV_XFER` 0 but for `BUS_ERROR`. -/
def Rdv.faultInv (r : Rdv) : Prop :=
  (r.err = false → r.errcode = .none ∧ r.errinfo = 0) ∧
  (r.err = true → (r.errcode = .illegalCmd ∨ r.errcode = .busError) ∧ r.errinfo = r.lrc) ∧
  (r.errcode ≠ .busError → r.xfer = Xfer.zero)

/-- Both units record faults as the rules say. -/
def State.faultInv (s : State) : Prop := s.ras.faultInv ∧ s.rdv.faultInv

/-- R22: every pixel of the command in progress is on the Surface of the latched dimensions. -/
def Ras.onSurfaceInv (r : Ras) : Prop :=
  r.busy = true → ∀ p ∈ r.seq, onSurface r.lw r.lh p.x p.y = true

/-- R17, R18: while `BUSY = 1`, `k = RAS_PIXCNT`, `k` is at most the length of `SEQ`, and the count fits the register. -/
def Ras.countInv (r : Ras) : Prop :=
  r.busy = true → r.pixcnt.toNat = r.k ∧ r.k ≤ r.seq.length ∧ r.seq.length < 2 ^ 32

/-- The write sequence of a drawing command as its rules give it (R21): a function of the command alone. -/
def drawSequence : Instr → Option (List Pixel)
  | .line x1 y1 x2 y2 _ => some (seqLine (signed x1) (signed y1) (signed x2) (signed y2))
  | .circle cx cy r _ _ => some (seqCircle (signed cx) (signed cy) (signed r))
  | .circleF cx cy r _ _ => some (seqDisc (signed cx) (signed cy) (signed r))
  | .ellipse cx cy rx ry _ => some (seqEllipse (signed cx) (signed cy) (signed rx) (signed ry))
  | .ellipseF cx cy rx ry _ => some (seqEllipseFilled (signed cx) (signed cy) (signed rx) (signed ry))
  | .rect x1 y1 x2 y2 _ => some (seqRect (signed x1) (signed y1) (signed x2) (signed y2))
  | .rectF x1 y1 x2 y2 _ => some (seqRectFilled (signed x1) (signed y1) (signed x2) (signed y2))
  | .pack565 _ _ _ _ _ => none
  | .rdbyte _ _ => none
  | .wrbyte _ _ => none
  | .rdpair _ _ => none
  | .rdblock _ _ => none

/-- The preconditions of a drawing command against the dimensions `w`, `h` (R82, R98, R114, R126): the fault it takes, if any. -/
def drawFault (r : Ras) : Instr → Option FaultCode
  | .line x1 y1 x2 y2 _ =>
    if cornersOnSurface r.lw r.lh (signed x1) (signed y1) (signed x2) (signed y2) then none else some .outOfBounds
  | .circle cx cy radius _ _ => circleFault r (signed cx) (signed cy) (signed radius)
  | .circleF cx cy radius _ _ => circleFault r (signed cx) (signed cy) (signed radius)
  | .ellipse cx cy rx ry _ => ellipseFault r (signed cx) (signed cy) (signed rx) (signed ry)
  | .ellipseF cx cy rx ry _ => ellipseFault r (signed cx) (signed cy) (signed rx) (signed ry)
  | .rect x1 y1 x2 y2 _ =>
    if cornersOnSurface r.lw r.lh (signed x1) (signed y1) (signed x2) (signed y2) then none else some .outOfBounds
  | .rectF x1 y1 x2 y2 _ =>
    if cornersOnSurface r.lw r.lh (signed x1) (signed y1) (signed x2) (signed y2) then none else some .outOfBounds
  | .pack565 _ _ _ _ _ => none
  | .rdbyte _ _ => none
  | .wrbyte _ _ => none
  | .rdpair _ _ => none
  | .rdblock _ _ => none

/-- R21: while `BUSY = 1` the sequence is the one of the latched command. -/
def Ras.seqInv (r : Ras) : Prop :=
  r.busy = true → ∃ i, decodeRas r.lcmd = .ok i ∧ drawSequence i = some r.seq

/-- Is the phase one that the command can be in (R133)? -/
def phaseFits : Instr → Phase → Bool
  | .rdbyte _ _, .w1 | .rdbyte _ _, .r1 => true
  | .wrbyte _ _, .w1 => true
  | .rdpair _ _, _ => true
  | .rdblock _ _, .w1 | .rdblock _ _, .r1 => true
  | _, _ => false

/-- The request that is outstanding in a phase of a command (R132, R133). -/
def outstandingRequest : Instr → Phase → BusRequest
  | .rdbyte addr _, .w1 => .write (rdbyteWrite addr)
  | .wrbyte addr value, .w1 => .write (wrbyteWrite addr value)
  | .rdpair lowAddr _, .w1 => .write (rdpairWrite lowAddr)
  | .rdblock blockAddr count, .w1 => .write (rdblockWrite blockAddr count)
  | .rdblock _ count, .r1 => .read count.toNat
  | .rdpair lowAddr _, .w2 => .write (rdpairWrite2 lowAddr)
  | _, _ => .read 1

/-- R33, R131: while `BUSY = 1` the latched command is legal, the phase is one of its own, and the last request of the trace
is the one outstanding in it; while `BUSY = 0` there is no phase. -/
def State.transferInv (s : State) : Prop :=
  (s.rdv.busy = false → s.rdv.ph = none) ∧
  (s.rdv.busy = true → ∃ i ph, decodeRdv s.rdv.lrc = .ok i ∧ s.rdv.ph = some ph ∧ phaseFits i ph = true ∧
    s.bus.trace.getLast? = some (outstandingRequest i ph))

/-- The host has done its duty of R199: the latched dimensions are the provider's in width and no more in height. -/
def State.dimensionsHonest (s : State) : Prop :=
  s.ras.lw = s.surface.width ∧ s.ras.lh.toNat ≤ s.surface.height.toNat

/-- `n` steps, stopping at the first fault or refusal. -/
def runSteps : Nat → State → Out
  | 0, s => .next s
  | n + 1, s =>
    match step s with
    | .next t => runSteps n t
    | .fault f => .fault f
    | .refused r => .refused r

/-- A step stops with neither fault nor refusal. -/
def stepSafe (s : State) : Prop := ∃ t, step s = .next t

end Sys2Proof.Machine
end

