-- ==== Sys2Proof/Certificates/Slice0/Obligations.lean ====
section
/-! DEFINITION. The statements for the provers, each from the rules of spec/ that its docstring names. -/

namespace Sys2Proof.Claims

open Sys2Proof.Machine

/-- `(x, y)` lies on the Surface of the host's dimensions `SURF_W`, `SURF_H` (R41). -/
abbrev onHostSurface (s : State) (x y : Int) : Prop :=
  0 ≤ x ∧ x < (s.ras.surfW.toNat : Int) ∧ 0 ≤ y ∧ y < (s.ras.surfH.toNat : Int)

/-- The box of extents `ex`, `ey` around `(cx, cy)` lies on that Surface (R98, R114). -/
abbrev extentOnHostSurface (s : State) (cx cy ex ey : Int) : Prop :=
  0 ≤ cx - ex ∧ cx + ex < (s.ras.surfW.toNat : Int) ∧ 0 ≤ cy - ey ∧ cy + ey < (s.ras.surfH.toNat : Int)

/-- Unit RAS accepts commands: `BUSY = 0` and `ERR = 0` (R20). -/
abbrev rasIdle (s : State) : Prop := s.ras.busy = false ∧ s.ras.err = false

/-- Unit RDV accepts commands (R132). -/
abbrev rdvIdle (s : State) : Prop := s.rdv.busy = false ∧ s.rdv.err = false

/-- The state after the accept step of a drawing command with word `c` and write sequence `seq` (R20). -/
def accepted (c : RasWord) (seq : List Pixel) (s : State) : State :=
  { s with ras := { s.ras with
      lcmd := c, lw := s.ras.surfW, lh := s.ras.surfH, done := false, pixcnt := 0, k := 0, seq := seq, busy := true } }

/-- The state after an accept step that took the fault `code` (R20, R176). -/
def faulted (c : RasWord) (code : FaultCode) (s : State) : State :=
  { s with ras := { s.ras with
      lcmd := c, lw := s.ras.surfW, lh := s.ras.surfH, done := false, pixcnt := 0, k := 0, seq := [], busy := false
      err := true, errcode := code, errinfo := c.extractLsb' 0 32 } }

/-- The state after the accept step of an RDV command with word `v` and first transfer `w1` (R132). -/
def requested (v : Word) (w1 : List Byte) (s : State) : State :=
  { s with
    rdv := { s.rdv with lrc := v, done := false, busy := true, ph := some .w1 }
    bus := { s.bus with trace := s.bus.trace ++ [.write w1] } }

/-- Unit RDV after an accept step that took `IllegalCommand` (R177). -/
def rdvFaulted (v : Word) (s : State) : State :=
  { s with rdv := { s.rdv with
      lrc := v, done := false, busy := false, ph := none, err := true, errcode := .illegalCmd, errinfo := v
      xfer := { req := 0, got := 0, ph := false, sub := false } } }

/-- The store `s.surface` is `P0` with the first `k` pixels of the command in progress drawn over it (R49, R202). -/
def drawnOver (P0 : Surface) (s : State) : Prop :=
  (∀ p ∈ s.ras.seq.take s.ras.k,
    s.surface.lookup (pixelIndex s.ras.lw p).toNat = some (s.ras.lcmd.extractLsb' 16 16)) ∧
  ∀ idx, (∀ p ∈ s.ras.seq.take s.ras.k, (pixelIndex s.ras.lw p).toNat ≠ idx) → s.surface.lookup idx = P0.lookup idx

/-- The instruction is a drawing command with write sequence `seq` whose preconditions hold of the host's dimensions. -/
abbrev drawable (i : Instr) (seq : List Pixel) (s : State) : Prop :=
  drawSequence i = some seq ∧ drawFault { s.ras with lw := s.ras.surfW, lh := s.ras.surfH } i = none

/-- Actions of unit RAS's side: its host port, its engine, and other agents of the Surface. -/
def rasSide : Event → Bool
  | .hostWrite .ras _ _ => true
  | .rasTurn => true
  | .surfaceWrite _ _ => true
  | _ => false

/-- Actions of unit RDV's side: its host port and the Bus provider. -/
def rdvSide : Event → Bool
  | .hostWrite .rdv _ _ => true
  | .busAnswer _ _ => true
  | _ => false

end Sys2Proof.Claims

open Sys2Proof Sys2Proof.Machine Sys2Proof.Claims

/-! ### Encoding -/

/-- R56, R59, R61, R62: the decoder gives back every well-formed instruction from its word, with every operand. -/
def Obligations.DecodeInvertsEncode : Prop :=
  ∀ i : Instr, i.wellFormed = true → decode (encode i) = .ok i

/-- R57, R60, R62: a word that decodes is the word of its instruction, so no bit of a legal word is lost, ignored ones included. -/
def Obligations.EncodeInvertsDecode : Prop :=
  ∀ (w : CommandWord) (i : Instr), decode w = .ok i → encode i = w ∧ i.wellFormed = true

/-- R57: which RAS words are legal; any other faults with `IllegalCommand` in the accept step; only `C[15:0]` matters. -/
def Obligations.RasWordLegality : Prop :=
  (∀ c : RasWord, (∃ i, decodeRas c = .ok i) ↔
    (c.extractLsb' 9 7 = 0 ∧ 1 ≤ (c.extractLsb' 0 8).toNat ∧ (c.extractLsb' 0 8).toNat ≤ 5 ∧
      ((c.extractLsb' 0 8 = 0x01 ∨ c.extractLsb' 0 8 = 0x05) → c.getLsbD 8 = false))) ∧
  (∀ c c' : RasWord, c.extractLsb' 0 16 = c'.extractLsb' 0 16 →
    ((∃ i, decodeRas c = .ok i) ↔ ∃ i, decodeRas c' = .ok i)) ∧
  (∀ (s : State) (v : Word) (rest : List Event), rasIdle s → s.script = .hostWrite .ras 8#4 v :: rest →
    (∀ i, decodeRas (s.ras.arg1 ++ s.ras.arg0 ++ v) ≠ .ok i) →
    step s = .next (faulted (s.ras.arg1 ++ s.ras.arg0 ++ v) .illegalCmd { s with script := rest }))

/-- R62: the opcode map of unit RDV; every other word faults with `IllegalCommand` in the accept step, without a transfer. -/
def Obligations.RdvWordLegality : Prop :=
  (∀ v : Word, (∃ i, decodeRdv v = .ok i) ↔
    (v.extractLsb' 24 8 = 0 ∧ 0x10 ≤ (v.extractLsb' 0 8).toNat ∧ (v.extractLsb' 0 8).toNat ≤ 0x13 ∧
      (v.extractLsb' 0 8 = 0x13 → 1 ≤ (v.extractLsb' 16 8).toNat ∧ (v.extractLsb' 16 8).toNat ≤ 32))) ∧
  (∀ v : Word,
    (v &&& 0xFF0000FF = 0x00000010 → decodeRdv v = .ok (.rdbyte (v.extractLsb' 8 8) (v.extractLsb' 16 8))) ∧
    (v &&& 0xFF0000FF = 0x00000011 → decodeRdv v = .ok (.wrbyte (v.extractLsb' 8 8) (v.extractLsb' 16 8))) ∧
    (v &&& 0xFF0000FF = 0x00000012 → decodeRdv v = .ok (.rdpair (v.extractLsb' 8 8) (v.extractLsb' 16 8))) ∧
    (v &&& 0xFF0000FF = 0x00000013 → 1 ≤ (v.extractLsb' 16 8).toNat → (v.extractLsb' 16 8).toNat ≤ 32 →
      decodeRdv v = .ok (.rdblock (v.extractLsb' 8 8) (v.extractLsb' 16 8)))) ∧
  (∀ (s : State) (v : Word) (rest : List Event), rdvIdle s → s.script = .hostWrite .rdv 4#4 v :: rest →
    (∀ i, decodeRdv v ≠ .ok i) → step s = .next (rdvFaulted v { s with script := rest }))

/-- R56, R59, R61, R62: words written out from the tables decode to the instructions they stand for. -/
def Obligations.WrittenOutWordsDecode : Prop :=
  decodeRas 0x00020005_00010003_F8000001#96 = .ok (.line 3 1 5 2 0xF800) ∧
  decodeRas 0x00000002_00050006_07E00102#96 = .ok (.circleF 6 5 2 0 0x07E0) ∧
  decodeRas 0x0064FFFF_00040007_00010003#96 = .ok (.ellipse 7 4 0xFFFF 0x64 1) ∧
  decodeRas 0x00070006_00050004_FFFF0104#96 = .ok (.rectF 4 5 6 7 0xFFFF) ∧
  decodeRas 0x00000000_00563412_00000005#96 = .ok (.pack565 0x12 0x34 0x56 0 0) ∧
  decodeRdv 0x00AA0710#32 = .ok (.rdbyte 0x07 0xAA) ∧
  decodeRdv 0x00080F13#32 = .ok (.rdblock 0x0F 8)

/-! ### A step runs the command -/

/-- R16, R20, R30, R132: a host write of a legal word to a unit's `CMD` register is `exec` of the decoded instruction; around it
the step only removes the action from the schedule. -/
def Obligations.StepRunsTheDecodedCommand : Prop :=
  (∀ (s : State) (v : Word) (rest : List Event) (i : Instr), s.script = .hostWrite .ras 8#4 v :: rest →
    decodeRas (s.ras.arg1 ++ s.ras.arg0 ++ v) = .ok i → step s = exec i { s with script := rest }) ∧
  (∀ (s : State) (v : Word) (rest : List Event) (i : Instr), s.script = .hostWrite .rdv 4#4 v :: rest →
    decodeRdv v = .ok i → step s = exec i { s with script := rest })

/-- R64, R65: the host writes that an assembler line expands to run its instruction, whatever the operand registers held. -/
def Obligations.IssuedLineRunsItsInstruction : Prop :=
  (∀ (i : Instr) (c : RasWord) (s : State) (rest : List Event), encode i = .ras c →
    s.script = .hostWrite .ras 6#4 (c.extractLsb' 32 32) :: .hostWrite .ras 7#4 (c.extractLsb' 64 32) ::
      .hostWrite .ras 8#4 (c.extractLsb' 0 32) :: rest →
    runSteps 3 s = exec i { s with
      ras := { s.ras with arg0 := c.extractLsb' 32 32, arg1 := c.extractLsb' 64 32 }, script := rest }) ∧
  (∀ (i : Instr) (v : Word) (s : State) (rest : List Event), i.wellFormed = true → encode i = .rdv v →
    s.script = .hostWrite .rdv 4#4 v :: rest → runSteps 1 s = exec i { s with script := rest })

/-- R24: a write to `RAS_CMD` while `BUSY = 1` or `ERR = 1` does only `OVR <- 1`, whatever the value. -/
def Obligations.RasCommandDroppedWhileBusyOrFaulted : Prop :=
  (∀ (s : State) (v : Word) (rest : List Event), (s.ras.busy = true ∨ s.ras.err = true) →
    s.script = .hostWrite .ras 8#4 v :: rest →
    step s = .next { s with ras := { s.ras with ovr := true }, script := rest }) ∧
  (∀ (i : Instr) (s : State), i.isRas = true → (s.ras.busy = true ∨ s.ras.err = true) →
    exec i s = .next { s with ras := { s.ras with ovr := true } })

/-- R30, R132, R180: the same of `RDV_CMD`; no transfer is requested. -/
def Obligations.RdvCommandDroppedWhileBusyOrFaulted : Prop :=
  (∀ (s : State) (v : Word) (rest : List Event), (s.rdv.busy = true ∨ s.rdv.err = true) →
    s.script = .hostWrite .rdv 4#4 v :: rest →
    step s = .next { s with rdv := { s.rdv with ovr := true }, script := rest }) ∧
  (∀ (i : Instr) (s : State), i.isRas = false → (s.rdv.busy = true ∨ s.rdv.err = true) →
    exec i s = .next { s with rdv := { s.rdv with ovr := true } })

/-! ### Drawing commands: accept -/

/-- R20, R76, R82, R121, R125, R126: `LINE`, `RECT` and `RECT.F` with both corners on the Surface are accepted. -/
def Obligations.LineAndRectanglesAreAccepted : Prop :=
  ∀ (x1 y1 x2 y2 : Field16) (color : Color) (c : RasWord) (s : State), rasIdle s →
    onHostSurface s x1.toInt y1.toInt → onHostSurface s x2.toInt y2.toInt →
    (encode (.line x1 y1 x2 y2 color) = .ras c →
      exec (.line x1 y1 x2 y2 color) s = .next (accepted c (seqLine x1.toInt y1.toInt x2.toInt y2.toInt) s)) ∧
    (encode (.rect x1 y1 x2 y2 color) = .ras c →
      exec (.rect x1 y1 x2 y2 color) s = .next (accepted c (seqRect x1.toInt y1.toInt x2.toInt y2.toInt) s)) ∧
    (encode (.rectF x1 y1 x2 y2 color) = .ras c →
      exec (.rectF x1 y1 x2 y2 color) s = .next (accepted c (seqRectFilled x1.toInt y1.toInt x2.toInt y2.toInt) s))

/-- R20, R91, R97, R98: `CIRCLE` and `CIRCLE.F` with a radius of at least 0 and the whole circle on the Surface are accepted;
the field `D` is ignored (R60). That a circle past column or row 32767 of a larger Surface is accepted is the model's choice (log 13):
R98 accepts it, R42 says that it cannot be drawn. -/
def Obligations.CirclesAreAccepted : Prop :=
  ∀ (cx cy r d : Field16) (color : Color) (c : RasWord) (s : State), rasIdle s → 0 ≤ r.toInt →
    extentOnHostSurface s cx.toInt cy.toInt r.toInt r.toInt →
    (encode (.circle cx cy r d color) = .ras c →
      exec (.circle cx cy r d color) s = .next (accepted c (seqCircle cx.toInt cy.toInt r.toInt) s)) ∧
    (encode (.circleF cx cy r d color) = .ras c →
      exec (.circleF cx cy r d color) s = .next (accepted c (seqDisc cx.toInt cy.toInt r.toInt) s))

/-- R20, R106, R113, R114: `ELLIPSE` and `ELLIPSE.F` with half-axes of at least 0 are accepted if the box of the effective extents
is on the Surface: `(rx, ry)`, or the centre alone if either is 0. That an ellipse past column or row 32767 of a larger Surface is
accepted is the model's choice (log 13): R114 accepts it, R42 says that it cannot be drawn. -/
def Obligations.EllipsesAreAccepted : Prop :=
  ∀ (cx cy rx ry : Field16) (color : Color) (c : RasWord) (s : State), rasIdle s → 0 ≤ rx.toInt → 0 ≤ ry.toInt →
    (if rx.toInt = 0 ∨ ry.toInt = 0 then extentOnHostSurface s cx.toInt cy.toInt 0 0
     else extentOnHostSurface s cx.toInt cy.toInt rx.toInt ry.toInt) →
    (encode (.ellipse cx cy rx ry color) = .ras c →
      exec (.ellipse cx cy rx ry color) s = .next (accepted c (seqEllipse cx.toInt cy.toInt rx.toInt ry.toInt) s)) ∧
    (encode (.ellipseF cx cy rx ry color) = .ras c →
      exec (.ellipseF cx cy rx ry color) s = .next (accepted c (seqEllipseFilled cx.toInt cy.toInt rx.toInt ry.toInt) s))

/-- R82, R126, R173, R176: `LINE`, `RECT` and `RECT.F` with a corner off the Surface take `OutOfBounds`. -/
def Obligations.LineAndRectanglesOffTheSurfaceFault : Prop :=
  ∀ (x1 y1 x2 y2 : Field16) (color : Color) (c : RasWord) (s : State), rasIdle s →
    ¬ (onHostSurface s x1.toInt y1.toInt ∧ onHostSurface s x2.toInt y2.toInt) →
    (encode (.line x1 y1 x2 y2 color) = .ras c →
      exec (.line x1 y1 x2 y2 color) s = .next (faulted c .outOfBounds s)) ∧
    (encode (.rect x1 y1 x2 y2 color) = .ras c →
      exec (.rect x1 y1 x2 y2 color) s = .next (faulted c .outOfBounds s)) ∧
    (encode (.rectF x1 y1 x2 y2 color) = .ras c →
      exec (.rectF x1 y1 x2 y2 color) s = .next (faulted c .outOfBounds s))

/-- R98, R114, R172, R173, R176, R178: `CIRCLE`, `CIRCLE.F`, `ELLIPSE`, `ELLIPSE.F`: a negative radius is `NegativeRadius` whatever the
bounds; else a shape that leaves the Surface (by the effective extents of an ellipse) is `OutOfBounds`. -/
def Obligations.RoundShapesFaultInOrder : Prop :=
  ∀ (cx cy a b : Field16) (color : Color) (filled : Bool) (c : RasWord) (s : State), rasIdle s →
    (encode (if filled then .circleF cx cy a b color else .circle cx cy a b color) = .ras c →
      (a.toInt < 0 → exec (if filled then .circleF cx cy a b color else .circle cx cy a b color) s =
        .next (faulted c .negRadius s)) ∧
      (0 ≤ a.toInt → ¬ extentOnHostSurface s cx.toInt cy.toInt a.toInt a.toInt →
        exec (if filled then .circleF cx cy a b color else .circle cx cy a b color) s =
          .next (faulted c .outOfBounds s))) ∧
    (encode (if filled then .ellipseF cx cy a b color else .ellipse cx cy a b color) = .ras c →
      ((a.toInt < 0 ∨ b.toInt < 0) → exec (if filled then .ellipseF cx cy a b color else .ellipse cx cy a b color) s =
        .next (faulted c .negRadius s)) ∧
      (0 ≤ a.toInt → 0 ≤ b.toInt →
        ¬ (if a.toInt = 0 ∨ b.toInt = 0 then extentOnHostSurface s cx.toInt cy.toInt 0 0
           else extentOnHostSurface s cx.toInt cy.toInt a.toInt b.toInt) →
        exec (if filled then .ellipseF cx cy a b color else .ellipse cx cy a b color) s =
          .next (faulted c .outOfBounds s)))

/-! ### PACK565 -/

/-- R70: `PACK565` leaves red's 5, green's 6 and blue's 5 high bits in `RAS_RESULT` and completes in its accept step. -/
def Obligations.Pack565Completes : Prop :=
  ∀ (r8 g8 b8 : Byte) (unused : BitVec 40) (color : Color) (c : RasWord) (s : State), rasIdle s →
    encode (.pack565 r8 g8 b8 unused color) = .ras c →
    exec (.pack565 r8 g8 b8 unused color) s = .next { s with ras := { s.ras with
      lcmd := c, lw := s.ras.surfW, lh := s.ras.surfH, done := true, pixcnt := 0, k := 0
      result := BitVec.ofNat 16 (r8.toNat / 8 * 2048 + g8.toNat / 4 * 32 + b8.toNat / 8) } }

/-- R71: the conversion truncates: where the kept bits of each channel stand, and that the OR is the sum; R72: the four colour
identities. -/
def Obligations.PackTruncates : Prop :=
  (∀ r8 g8 b8 : Byte,
    (pack565 r8 g8 b8).extractLsb' 11 5 = r8.extractLsb' 3 5 ∧
    (pack565 r8 g8 b8).extractLsb' 5 6 = g8.extractLsb' 2 6 ∧
    (pack565 r8 g8 b8).extractLsb' 0 5 = b8.extractLsb' 3 5 ∧
    (pack565 r8 g8 b8).toNat = r8.toNat / 8 * 2048 + g8.toNat / 4 * 32 + b8.toNat / 8) ∧
  pack565 255 0 0 = 0xF800 ∧ pack565 0 255 0 = 0x07E0 ∧ pack565 0 0 255 = 0x001F ∧ pack565 255 255 255 = 0xFFFF

/-! ### Unit RDV -/

/-- R132, R134 to R138: each RDV command is accepted and requests its first transfer. -/
def Obligations.RdvCommandsAreAccepted : Prop :=
  ∀ (a o : Byte) (v : Word) (s : State), rdvIdle s →
    (encode (.rdbyte a o) = .rdv v → exec (.rdbyte a o) s = .next (requested v [0x80 ||| a] s)) ∧
    (encode (.wrbyte a o) = .rdv v → exec (.wrbyte a o) s = .next (requested v [0x80 ||| a, o] s)) ∧
    (encode (.rdpair a o) = .rdv v → exec (.rdpair a o) s = .next (requested v [0x80 ||| a] s)) ∧
    (1 ≤ o.toNat → o.toNat ≤ 32 → encode (.rdblock a o) = .rdv v →
      exec (.rdblock a o) s = .next (requested v [0xC0 ||| a, o] s))

/-- R133, R134, R139: `RDBYTE` with full answers: the transfers, the byte in `RDV_DATA`, `DONE`. -/
def Obligations.ReadByteTransaction : Prop :=
  ∀ (addr opd b : Byte) (v : Word) (s : State), rdvIdle s → encode (.rdbyte addr opd) = .rdv v →
    ∃ t u, exec (.rdbyte addr opd) s = .next t ∧
      runSteps 2 { t with script := [.busAnswer s.bus.trace.length (.count 1),
        .busAnswer (s.bus.trace.length + 1) (.bytes [b])] } = .next u ∧
      u.bus.trace = s.bus.trace ++ [.write [0x80 ||| addr], .read 1] ∧
      u.rdv = { s.rdv with lrc := v, busy := false, done := true, ph := none, data := b.setWidth 16 } ∧
      u.ras = s.ras ∧ u.surface = s.surface

/-- R133, R135, R139: `WRBYTE` with a full answer: one transfer, no result register changes. -/
def Obligations.WriteByteTransaction : Prop :=
  ∀ (addr value : Byte) (v : Word) (s : State), rdvIdle s → encode (.wrbyte addr value) = .rdv v →
    ∃ t u, exec (.wrbyte addr value) s = .next t ∧
      runSteps 1 { t with script := [.busAnswer s.bus.trace.length (.count 2)] } = .next u ∧
      u.bus.trace = s.bus.trace ++ [.write [0x80 ||| addr, value]] ∧
      u.rdv = { s.rdv with lrc := v, busy := false, done := true, ph := none } ∧
      u.ras = s.ras ∧ u.surface = s.surface

/-- R133, R136, R137, R139: `RDPAIR` with full answers: two byte reads, the second at the next address modulo 256, and
`low | (high << 8)`. -/
def Obligations.ReadPairTransaction : Prop :=
  ∀ (lowAddr opd lo hi : Byte) (v : Word) (s : State), rdvIdle s → encode (.rdpair lowAddr opd) = .rdv v →
    ∃ t u, exec (.rdpair lowAddr opd) s = .next t ∧
      runSteps 4 { t with script := [.busAnswer s.bus.trace.length (.count 1),
        .busAnswer (s.bus.trace.length + 1) (.bytes [lo]), .busAnswer (s.bus.trace.length + 2) (.count 1),
        .busAnswer (s.bus.trace.length + 3) (.bytes [hi])] } = .next u ∧
      u.bus.trace = s.bus.trace ++
        [.write [0x80 ||| lowAddr], .read 1, .write [0x80 ||| BitVec.ofNat 8 (lowAddr.toNat + 1)], .read 1] ∧
      u.rdv = { s.rdv with lrc := v, busy := false, done := true, ph := none, lo := lo, data := hi ++ lo } ∧
      u.ras = s.ras ∧ u.surface = s.surface

/-- R32, R133, R138, R139: `RDBLOCK` with full answers: the bytes in the buffer in the order received, the rest of it unchanged. -/
def Obligations.ReadBlockTransaction : Prop :=
  ∀ (addr count : Byte) (bs : List Byte) (v : Word) (s : State), rdvIdle s → 1 ≤ count.toNat → count.toNat ≤ 32 →
    bs.length = count.toNat → encode (.rdblock addr count) = .rdv v →
    ∃ t u, exec (.rdblock addr count) s = .next t ∧
      runSteps 2 { t with script := [.busAnswer s.bus.trace.length (.count 2),
        .busAnswer (s.bus.trace.length + 1) (.bytes bs)] } = .next u ∧
      u.bus.trace = s.bus.trace ++ [.write [0xC0 ||| addr, count], .read count.toNat] ∧
      (∀ i : Fin 32, u.rdv.buf[i] = if h : i.val < bs.length then bs[i.val] else s.rdv.buf[i]) ∧
      u.rdv = { s.rdv with lrc := v, busy := false, done := true, ph := none, buf := u.rdv.buf } ∧
      u.ras = s.ras ∧ u.surface = s.surface

/-- R133, R174, R177: a short answer in any phase of any command is `BusError`, with the failing transfer recorded, the result
registers unchanged and no further request. -/
def Obligations.ShortTransferIsBusError : Prop :=
  ∀ (i : Instr) (ph : Phase) (s : State) (rest : List Event), s.rdv.busy = true → decodeRdv s.rdv.lrc = .ok i →
    s.rdv.ph = some ph → phaseFits i ph = true → s.bus.trace.getLast? = some (outstandingRequest i ph) →
    (∀ (sent : List Byte) (k : Nat), outstandingRequest i ph = .write sent → k < sent.length →
      s.script = .busAnswer (s.bus.trace.length - 1) (.count k) :: rest →
      step s = .next { s with script := rest, rdv := { s.rdv with
        busy := false, done := false, err := true, errcode := .busError, errinfo := s.rdv.lrc, ph := none, lo := 0
        xfer := { req := BitVec.ofNat 8 sent.length, got := BitVec.ofNat 8 k, ph := false, sub := decide (ph = .w2) } } }) ∧
    (∀ (n : Nat) (bs : List Byte), outstandingRequest i ph = .read n → bs.length < n →
      s.script = .busAnswer (s.bus.trace.length - 1) (.bytes bs) :: rest →
      step s = .next { s with script := rest, rdv := { s.rdv with
        busy := false, done := false, err := true, errcode := .busError, errinfo := s.rdv.lrc, ph := none, lo := 0
        xfer := { req := BitVec.ofNat 8 n, got := BitVec.ofNat 8 bs.length, ph := true, sub := decide (ph = .r2) } } })

/-- R183, R196: an answer to a request that is not outstanding causes nothing. -/
def Obligations.LateAnswerIsDiscarded : Prop :=
  ∀ (s : State) (n : Nat) (a : BusAnswer) (rest : List Event), s.script = .busAnswer n a :: rest →
    (s.rdv.busy = false ∨ n + 1 ≠ s.bus.trace.length) → step s = .next { s with script := rest }

/-! ### Control registers and the host port -/

/-- R14: the write of `RAS_CTRL`, in every state; it reads 0. -/
def Obligations.RasControlWrite : Prop :=
  ∀ (s : State) (v : Word) (rest : List Event),
    (s.script = .hostWrite .ras 3#4 v :: rest →
      step s = .next { s with script := rest, ras := { s.ras with
        err := if v.getLsbD 0 then false else s.ras.err
        errcode := if v.getLsbD 0 then .none else s.ras.errcode
        errinfo := if v.getLsbD 0 then 0 else s.ras.errinfo
        done := if v.getLsbD 1 then false else s.ras.done
        ovr := if v.getLsbD 2 then false else s.ras.ovr } }) ∧
    hostRead .ras 3#4 s = 0

/-- R29, R183: the write of `RDV_CTRL`, in every state: the abort if `v[3]`, else the clears; it reads 0. -/
def Obligations.RdvControlWrite : Prop :=
  ∀ (s : State) (v : Word) (rest : List Event), s.script = .hostWrite .rdv 3#4 v :: rest →
    hostRead .rdv 3#4 s = 0 ∧
    (v.getLsbD 3 = true → step s =
      .next { s with script := rest, rdv := Rdv.reset, bus := { s.bus with trace := s.bus.trace ++ [.close] } }) ∧
    (v.getLsbD 3 = false → step s = .next { s with script := rest, rdv := { s.rdv with
        err := if v.getLsbD 0 then false else s.rdv.err
        errcode := if v.getLsbD 0 then .none else s.rdv.errcode
        errinfo := if v.getLsbD 0 then 0 else s.rdv.errinfo
        xfer := if v.getLsbD 0 then { req := 0, got := 0, ph := false, sub := false } else s.rdv.xfer
        done := if v.getLsbD 1 then false else s.rdv.done
        ovr := if v.getLsbD 2 then false else s.rdv.ovr } })

/-- R10 to R13, R16, R17, R26 to R28, R31, R32, R170: a host read changes nothing of the block; what the registers read, `STATUS` its four flags and
zeros, `ERRCODE` the number of its code; the offsets with no register read 0. (That the value is kept in `readData` is the model's own, log 15.) -/
def Obligations.HostReadsHaveNoSideEffect : Prop :=
  ∀ (s : State) (u : HostUnit) (o : Offset) (rest : List Event),
    (s.script = .hostRead u o :: rest → step s = .next { s with script := rest, readData := hostRead u o s }) ∧
    (hostRead .ras 0#4 s = (0 : BitVec 28) ++ BitVec.ofBool s.ras.ovr ++ BitVec.ofBool s.ras.err ++
      BitVec.ofBool s.ras.done ++ BitVec.ofBool s.ras.busy) ∧
    (hostRead .rdv 0#4 s = (0 : BitVec 28) ++ BitVec.ofBool s.rdv.ovr ++ BitVec.ofBool s.rdv.err ++
      BitVec.ofBool s.rdv.done ++ BitVec.ofBool s.rdv.busy) ∧
    hostRead .ras 2#4 s = s.ras.errinfo ∧ hostRead .ras 8#4 s = s.ras.lcmd.extractLsb' 0 32 ∧
    hostRead .ras 9#4 s = (0 : BitVec 16) ++ s.ras.result ∧ hostRead .ras 10#4 s = s.ras.pixcnt ∧
    hostRead .rdv 4#4 s = s.rdv.lrc ∧ hostRead .rdv 5#4 s = (0 : BitVec 16) ++ s.rdv.data ∧
    hostRead .ras 1#4 s = (0 : BitVec 28) ++ s.ras.errcode.code ∧ hostRead .rdv 1#4 s = (0 : BitVec 28) ++ s.rdv.errcode.code ∧
    hostRead .rdv 2#4 s = s.rdv.errinfo ∧
    (FaultCode.none.code = 0 ∧ FaultCode.illegalCmd.code = 1 ∧ FaultCode.negRadius.code = 2 ∧ FaultCode.outOfBounds.code = 3 ∧
      FaultCode.busError.code = 4) ∧
    hostRead .rdv 6#4 s = (0 : BitVec 14) ++ BitVec.ofBool s.rdv.xfer.sub ++ BitVec.ofBool s.rdv.xfer.ph ++
      s.rdv.xfer.got ++ s.rdv.xfer.req ∧
    (∀ n : Fin 8, hostRead .rdv (BitVec.ofNat 4 (8 + n.val)) s =
      s.rdv.buf[4 * n.val + 3] ++ s.rdv.buf[4 * n.val + 2] ++ s.rdv.buf[4 * n.val + 1] ++ s.rdv.buf[4 * n.val]) ∧
    (11 ≤ o.toNat → hostRead .ras o s = 0) ∧ hostRead .rdv 7#4 s = 0

/-- R10, R11, R15, R16, R26: `SURF_W`, `SURF_H`, `RAS_ARG0`, `RAS_ARG1` are plain registers in every state, also while `BUSY = 1`: a
write stores the value, the read gives it back, nothing else changes; a write to a read-only register or to an offset with no
register changes nothing. -/
def Obligations.PlainRegistersStoreAndOthersIgnoreWrites : Prop :=
  ∀ (s : State) (o : Offset) (v : Word) (rest : List Event),
    (s.script = .hostWrite .ras 4#4 v :: rest → ∃ t, step s = .next t ∧ hostRead .ras 4#4 t = v ∧
      t = { s with script := rest, ras := { s.ras with surfW := v } }) ∧
    (s.script = .hostWrite .ras 5#4 v :: rest → ∃ t, step s = .next t ∧ hostRead .ras 5#4 t = v ∧
      t = { s with script := rest, ras := { s.ras with surfH := v } }) ∧
    (s.script = .hostWrite .ras 6#4 v :: rest → ∃ t, step s = .next t ∧ hostRead .ras 6#4 t = v ∧
      t = { s with script := rest, ras := { s.ras with arg0 := v } }) ∧
    (s.script = .hostWrite .ras 7#4 v :: rest → ∃ t, step s = .next t ∧ hostRead .ras 7#4 t = v ∧
      t = { s with script := rest, ras := { s.ras with arg1 := v } }) ∧
    (s.script = .hostWrite .ras o v :: rest → (o.toNat < 3 ∨ 8 < o.toNat) → step s = .next { s with script := rest }) ∧
    (s.script = .hostWrite .rdv o v :: rest → (o.toNat < 3 ∨ 4 < o.toNat) → step s = .next { s with script := rest })

/-- R35, R195, R196, R197: reset at any moment: every register and hidden variable of both units takes its reset value; the
Surface, the bus and what the other agents will do stay; no `BusClose`. -/
def Obligations.ResetAtAnyMoment : Prop :=
  ∀ (s : State) (rest : List Event), s.script = .reset :: rest →
    ∃ t, step s = .next t ∧ t.surface = s.surface ∧ t.bus = s.bus ∧ t.script = rest ∧
      t.ras = { busy := false, done := false, err := false, ovr := false, errcode := .none, errinfo := 0, surfW := 0,
                surfH := 0, arg0 := 0, arg1 := 0, result := 0, pixcnt := 0, lcmd := 0, lw := 0, lh := 0, seq := [], k := 0 } ∧
      (∀ i : Fin 32, t.rdv.buf[i] = 0) ∧
      t.rdv = { busy := false, done := false, err := false, ovr := false, errcode := .none, errinfo := 0
                xfer := { req := 0, got := 0, ph := false, sub := false }, lrc := 0, data := 0, buf := t.rdv.buf
                ph := none, lo := 0 } ∧
      t.ras = State.reset.ras ∧ t.rdv = State.reset.rdv

/-! ### The RAS engine -/

/-- R22, R43: the pixel step writes the command's colour at `x + y*LW`, changes no other pixel and counts one. The index fits the
48 bits of the port (R42), as every index of an accepted command does (`PixelIndexFitsItsPort`). -/
def Obligations.PixelStepWritesOnePixel : Prop :=
  ∀ (s : State) (p : Pixel) (rest : List Event), s.script = .rasTurn :: rest → s.ras.busy = true →
    s.ras.seq[s.ras.k]? = some p → 0 ≤ p.x → p.x < (s.ras.lw.toNat : Int) → 0 ≤ p.y → p.y < (s.ras.lh.toNat : Int) →
    p.x + p.y * (s.ras.lw.toNat : Int) < 2 ^ 48 →
    (p.x + p.y * (s.ras.lw.toNat : Int)).toNat < s.surface.width.toNat * s.surface.height.toNat →
    ∃ t, step s = .next t ∧
      t.surface.lookup (p.x + p.y * (s.ras.lw.toNat : Int)).toNat = some (s.ras.lcmd.extractLsb' 16 16) ∧
      (∀ idx, idx ≠ (p.x + p.y * (s.ras.lw.toNat : Int)).toNat → t.surface.lookup idx = s.surface.lookup idx) ∧
      t = { s with script := rest, surface := t.surface
                   ras := { s.ras with k := s.ras.k + 1, pixcnt := s.ras.pixcnt + 1 } } ∧
      t.surface.width = s.surface.width ∧ t.surface.height = s.surface.height

/-- R23, R190: after the last pixel the engine finishes and changes nothing else; an idle engine does nothing. -/
def Obligations.FinishAndIdleTurns : Prop :=
  ∀ (s : State) (rest : List Event), s.script = .rasTurn :: rest →
    (s.ras.busy = true → s.ras.k = s.ras.seq.length →
      step s = .next { s with script := rest, ras := { s.ras with busy := false, done := true } }) ∧
    (s.ras.busy = false → step s = .next { s with script := rest })

/-- R43, R199: a pixel whose index is outside the provider's store stops the run (log 6), and R49: another agent's write while
`BUSY = 1` is refused (log 7): both are the model's stops for what the spec leaves undefined. -/
def Obligations.UndefinedSurfaceAccessesStop : Prop :=
  (∀ (s : State) (p : Pixel) (rest : List Event), s.script = .rasTurn :: rest → s.ras.busy = true →
    s.ras.seq[s.ras.k]? = some p → onSurface s.ras.lw s.ras.lh p.x p.y = true →
    s.surface.width.toNat * s.surface.height.toNat ≤ (pixelIndex s.ras.lw p).toNat →
    step s = .fault .pixelOutsideStore) ∧
  (∀ (s : State) (idx : Nat) (v : Color) (rest : List Event), s.script = .surfaceWrite idx v :: rest →
    s.ras.busy = true → step s = .refused .concurrentSurfaceWriter)

/-- R25: the net effect of a drawing command that runs alone to its finish step on the provider's true dimensions (R199). That the
engine takes its steps when no agent has an action to come is the model's own schedule (DESIGN CHOICE, notes/assumptions/1.md). -/
def Obligations.DrawingCommandNetEffect : Prop :=
  ∀ (i : Instr) (seq : List Pixel) (c : RasWord) (s : State), rasIdle s → s.script = [] → encode i = .ras c →
    drawable i seq s → s.ras.surfW = s.surface.width → s.ras.surfH.toNat ≤ s.surface.height.toNat →
    ∃ t u, exec i s = .next t ∧ runSteps (seq.length + 1) t = .next u ∧
      (∀ p ∈ seq, u.surface.lookup (pixelIndex s.ras.surfW p).toNat = some (c.extractLsb' 16 16)) ∧
      (∀ idx, (∀ p ∈ seq, (pixelIndex s.ras.surfW p).toNat ≠ idx) → u.surface.lookup idx = s.surface.lookup idx) ∧
      u.ras.pixcnt.toNat = seq.length ∧ u.ras.done = true ∧ u.ras.busy = false ∧ u.ras.err = false ∧
      u.rdv = s.rdv ∧ u.bus = s.bus

/-- R47, R49, R196, R202: under every schedule, while a drawing command is in progress the store is the old one with the first `k`
pixels drawn; a reset keeps what is drawn. -/
def Obligations.StepsExtendTheDrawnPart : Prop :=
  ∀ (P0 : Surface) (s t : State), s.ras.busy = true → drawnOver P0 s → step s = .next t →
    (drawnOver P0 t ∧ t.ras.seq = s.ras.seq ∧ t.ras.lcmd = s.ras.lcmd ∧ t.ras.lw = s.ras.lw ∧
      (t.ras.k = s.ras.k ∨ t.ras.k = s.ras.k + 1) ∧ (t.ras.busy = false → t.ras.done = true ∧ t.ras.k = t.ras.seq.length)) ∨
    (t.ras = Ras.reset ∧ t.surface = s.surface)

/-- R15, R24, R51, R203, R207: no action but reset alters the command in progress; every action that is not the engine's leaves its
progress and the Surface as they are. -/
def Obligations.CommandInProgressIsUndisturbed : Prop :=
  ∀ (e : Event) (rest : List Event) (s t : State), s.ras.busy = true → s.script = e :: rest → e ≠ .reset →
    step s = .next t →
    t.ras.seq = s.ras.seq ∧ t.ras.lcmd = s.ras.lcmd ∧ t.ras.lw = s.ras.lw ∧ t.ras.lh = s.ras.lh ∧
    (e ≠ .rasTurn → t.ras.busy = true ∧ t.ras.k = s.ras.k ∧ t.ras.pixcnt = s.ras.pixcnt ∧ t.surface = s.surface)

/-! ### Independence and frames -/

/-- R1: the units share no state: what happens on one unit's side neither reads nor writes the other unit, whatever that holds; a
host read depends on its own unit alone; the one reset input resets both. -/
def Obligations.UnitsShareNoState : Prop :=
  (∀ (e : Event) (r1 r2 : List Event) (s1 s2 t1 : State), rasSide e = true → s1.script = e :: r1 → s2.script = e :: r2 →
    s1.ras = s2.ras → s1.surface = s2.surface → step s1 = .next t1 →
    t1.rdv = s1.rdv ∧ t1.bus = s1.bus ∧
    ∃ t2, step s2 = .next t2 ∧ t2.ras = t1.ras ∧ t2.surface = t1.surface ∧ t2.rdv = s2.rdv ∧ t2.bus = s2.bus) ∧
  (∀ (e : Event) (r1 r2 : List Event) (s1 s2 t1 : State), rdvSide e = true → s1.script = e :: r1 → s2.script = e :: r2 →
    s1.rdv = s2.rdv → s1.bus = s2.bus → step s1 = .next t1 →
    t1.ras = s1.ras ∧ t1.surface = s1.surface ∧
    ∃ t2, step s2 = .next t2 ∧ t2.rdv = t1.rdv ∧ t2.bus = t1.bus ∧ t2.ras = s2.ras ∧ t2.surface = s2.surface) ∧
  (∀ (o : Offset) (s1 s2 : State), (s1.ras = s2.ras → hostRead .ras o s1 = hostRead .ras o s2) ∧
    (s1.rdv = s2.rdv → hostRead .rdv o s1 = hostRead .rdv o s2)) ∧
  (∀ (u : HostUnit) (o : Offset) (rest : List Event) (s t : State), s.script = .hostRead u o :: rest → step s = .next t →
    t.ras = s.ras ∧ t.rdv = s.rdv) ∧
  (∀ (rest : List Event) (s t : State), s.script = .reset :: rest → step s = .next t →
    t.ras = State.reset.ras ∧ t.rdv = State.reset.rdv)

/-- R15 to R17, R20, R24, R176: the frame of the eight RAS commands at their own step: no pixel, no register of unit RDV, no operand or
dimension register changes; `RAS_RESULT` only by `PACK565`; `OVR` only by a dropped command. -/
def Obligations.RasCommandFrame : Prop :=
  ∀ (i : Instr) (s t : State), i.isRas = true → exec i s = .next t →
    (∀ idx, t.surface.read idx = s.surface.read idx) ∧ t.surface = s.surface ∧ t.rdv = s.rdv ∧ t.bus = s.bus ∧
    t.script = s.script ∧ t.readData = s.readData ∧
    t.ras.surfW = s.ras.surfW ∧ t.ras.surfH = s.ras.surfH ∧ t.ras.arg0 = s.ras.arg0 ∧ t.ras.arg1 = s.ras.arg1 ∧
    (drawSequence i ≠ none → t.ras.result = s.ras.result) ∧ (rasIdle s → t.ras.ovr = s.ras.ovr) ∧
    (t.ras.errcode ≠ s.ras.errcode → t.ras.err = true)

/-- R31, R32, R132, R177: the frame of the four RDV commands at their own step: no pixel, nothing of unit RAS, no result register and
no byte of the buffer changes, and the bus sees at most one new request. -/
def Obligations.RdvCommandFrame : Prop :=
  ∀ (i : Instr) (s t : State), i.isRas = false → exec i s = .next t →
    (∀ idx, t.surface.read idx = s.surface.read idx) ∧ t.surface = s.surface ∧ t.ras = s.ras ∧
    t.script = s.script ∧ t.readData = s.readData ∧
    t.rdv.data = s.rdv.data ∧ t.rdv.buf = s.rdv.buf ∧ t.rdv.lo = s.rdv.lo ∧ (rdvIdle s → t.rdv.ovr = s.rdv.ovr) ∧
    (t.bus = s.bus ∨ ∃ bytes, t.bus.trace = s.bus.trace ++ [.write bytes])

/-- R17, R31, R32: who writes the result registers: `RAS_RESULT` an accepted `PACK565`; `RDV_DATA` a byte or pair read, and the buffer a
block read, that finishes; `ABORT` and reset. -/
def Obligations.ResultRegistersHaveTheirWriters : Prop :=
  ∀ (s t : State), step s = .next t →
    (t.ras.result ≠ s.ras.result →
      t.ras = Ras.reset ∨ (rasIdle s ∧ t.ras.done = true ∧ t.ras.busy = false ∧
        ∃ r g b u color, decodeRas t.ras.lcmd = .ok (.pack565 r g b u color) ∧ t.ras.result = pack565 r g b)) ∧
    (t.rdv.data ≠ s.rdv.data →
      t.rdv = Rdv.reset ∨ ((∃ a o, decodeRdv s.rdv.lrc = .ok (.rdbyte a o) ∨ decodeRdv s.rdv.lrc = .ok (.rdpair a o)) ∧
        s.rdv.busy = true ∧ t.rdv.busy = false ∧ t.rdv.done = true)) ∧
    (t.rdv.buf ≠ s.rdv.buf →
      t.rdv = Rdv.reset ∨ ((∃ a n, decodeRdv s.rdv.lrc = .ok (.rdblock a n)) ∧
        s.rdv.busy = true ∧ t.rdv.busy = false ∧ t.rdv.done = true))

/-! ### The shapes -/

/-- R80: (a) the length of a line, no pixel twice; (b) consecutive pixels differ by exactly 1 on the fast axis and by 0 or 1 on the
cross axis; (c) both ends are on it and it stays in their box; (d) the same sequence whichever end is given first; (e) it starts
at the end with the smaller fast-axis coordinate. -/
def Obligations.LineIsAConnectedPathBetweenItsEnds : Prop :=
  ∀ x1 y1 x2 y2 : Int,
    (seqLine x1 y1 x2 y2).length = max (x2 - x1).natAbs (y2 - y1).natAbs + 1 ∧ (seqLine x1 y1 x2 y2).Nodup ∧
    (∀ (n : Nat) (p q : Pixel), (seqLine x1 y1 x2 y2)[n]? = some p → (seqLine x1 y1 x2 y2)[n + 1]? = some q →
      if (y2 - y1).natAbs > (x2 - x1).natAbs then q.y = p.y + 1 ∧ (q.x - p.x).natAbs ≤ 1
      else q.x = p.x + 1 ∧ (q.y - p.y).natAbs ≤ 1) ∧
    { x := x1, y := y1 } ∈ seqLine x1 y1 x2 y2 ∧ { x := x2, y := y2 } ∈ seqLine x1 y1 x2 y2 ∧
    (∀ p ∈ seqLine x1 y1 x2 y2, min x1 x2 ≤ p.x ∧ p.x ≤ max x1 x2 ∧ min y1 y2 ≤ p.y ∧ p.y ≤ max y1 y2) ∧
    seqLine x1 y1 x2 y2 = seqLine x2 y2 x1 y1 ∧
    (seqLine x1 y1 x2 y2).head? = some
      (if (if (y2 - y1).natAbs > (x2 - x1).natAbs then y1 ≤ y2 else x1 ≤ x2) then { x := x1, y := y1 }
       else { x := x2, y := y2 })

/-- R78: the closed form of the walk, for the operands in the order in which the walk takes them. -/
def Obligations.LineClosedForm : Prop :=
  ∀ (x1 y1 x2 y2 : Int) (i : Nat),
    ((y2 - y1).natAbs ≤ (x2 - x1).natAbs → x1 < x2 → i ≤ (x2 - x1).natAbs →
      (seqLine x1 y1 x2 y2)[i]? = some { x := x1 + i, y := y1 + (y2 - y1).sign *
        ((2 * i * (y2 - y1).natAbs + (x2 - x1).natAbs - 1) / (2 * (x2 - x1).natAbs) : Nat) }) ∧
    ((x2 - x1).natAbs < (y2 - y1).natAbs → y1 < y2 → i ≤ (y2 - y1).natAbs →
      (seqLine x1 y1 x2 y2)[i]? = some { x := x1 + (x2 - x1).sign *
        ((2 * i * (x2 - x1).natAbs + (y2 - y1).natAbs - 1) / (2 * (y2 - y1).natAbs) : Nat), y := y1 + i })

/-- R79, R99, R108: a line whose ends coincide, a circle of radius 0 and an ellipse with a half-axis of 0 are one pixel. -/
def Obligations.DegenerateShapesAreOnePixel : Prop :=
  (∀ x y : Int, seqLine x y x y = [{ x := x, y := y }]) ∧
  (oct 0 = [{ x := 0, y := 0 }] ∧ rowMax (quarter 0) 0 = 0 ∧ (∀ cx cy : Int, plot8 cx cy { x := 0, y := 0 } = [{ x := cx, y := cy }]) ∧
    ∀ cx cy : Int, seqCircle cx cy 0 = [{ x := cx, y := cy }] ∧ seqDisc cx cy 0 = [{ x := cx, y := cy }]) ∧
  (∀ rx ry : Int, (rx = 0 ∨ ry = 0) → quad rx ry = [{ x := 0, y := 0 }] ∧
    ∀ cx cy : Int, seqEllipse cx cy rx ry = [{ x := cx, y := cy }] ∧ seqEllipseFilled cx cy rx ry = [{ x := cx, y := cy }])

/-- R122, R123: the sets that the two rectangles paint. -/
def Obligations.RectanglesPaintTheirSets : Prop :=
  ∀ (x1 y1 x2 y2 : Int) (p : Pixel),
    (p ∈ seqRectFilled x1 y1 x2 y2 ↔ min x1 x2 ≤ p.x ∧ p.x ≤ max x1 x2 ∧ min y1 y2 ≤ p.y ∧ p.y ≤ max y1 y2) ∧
    (p ∈ seqRect x1 y1 x2 y2 ↔ min x1 x2 ≤ p.x ∧ p.x ≤ max x1 x2 ∧ min y1 y2 ≤ p.y ∧ p.y ≤ max y1 y2 ∧
      (p.x = min x1 x2 ∨ p.x = max x1 x2 ∨ p.y = min y1 y2 ∨ p.y = max y1 y2))

/-- R124: (a) no pixel twice; (b) the lengths; (c) only the unordered corner pair matters; (d) the outline lies in the filled rectangle,
holds its corners and is all of it if `w <= 2` or `h <= 2`; (e) the box is exact; (f) the outline is the union of four lines. -/
def Obligations.RectangleSequenceProperties : Prop :=
  ∀ (x1 y1 x2 y2 xa xb ya yb : Int) (w h : Nat), xa = min x1 x2 → xb = max x1 x2 → ya = min y1 y2 → yb = max y1 y2 →
    w = (xb - xa + 1).toNat → h = (yb - ya + 1).toNat →
    ((seqRect x1 y1 x2 y2).Nodup ∧ (seqRectFilled x1 y1 x2 y2).Nodup) ∧
    ((seqRect x1 y1 x2 y2).length = (if w ≤ 2 ∨ h ≤ 2 then w * h else 2 * w + 2 * h - 4) ∧
      (seqRectFilled x1 y1 x2 y2).length = w * h) ∧
    (seqRect x2 y2 x1 y1 = seqRect x1 y1 x2 y2 ∧ seqRect x1 y2 x2 y1 = seqRect x1 y1 x2 y2 ∧
      seqRectFilled x2 y2 x1 y1 = seqRectFilled x1 y1 x2 y2 ∧ seqRectFilled x1 y2 x2 y1 = seqRectFilled x1 y1 x2 y2) ∧
    ((∀ p ∈ seqRect x1 y1 x2 y2, p ∈ seqRectFilled x1 y1 x2 y2) ∧
      (∀ x y : Int, (x = xa ∨ x = xb) → (y = ya ∨ y = yb) → { x := x, y := y } ∈ seqRect x1 y1 x2 y2) ∧
      ((w ≤ 2 ∨ h ≤ 2) → ∀ p ∈ seqRectFilled x1 y1 x2 y2, p ∈ seqRect x1 y1 x2 y2)) ∧
    (∀ p ∈ seqRectFilled x1 y1 x2 y2, xa ≤ p.x ∧ p.x ≤ xb ∧ ya ≤ p.y ∧ p.y ≤ yb) ∧
    (∀ p : Pixel, p ∈ seqRect x1 y1 x2 y2 ↔
      p ∈ seqLine xa ya xb ya ∨ p ∈ seqLine xa yb xb yb ∨ p ∈ seqLine xa ya xa yb ∨ p ∈ seqLine xb ya xb yb)

/-- R92: the octant walk starts at `(0, r)`, every point it visits has `0 <= x <= y <= r`, from one visit to the next `x` rises by 1
and `y` falls by 0 or 1, and its closed form: visit `x` is at the one `Y` with `(2Y-1)^2 <= 4(r^2 - x^2) < (2Y+1)^2`, for every `x` as
long as `x <= Y`. R94 (c): it ends within one pixel of the diagonal, so that the eight mirror images join without a gap; R94 (d):
every outline pixel is at a distance of at least `r - 1/2` and less than `r + 1/2` from the centre. -/
def Obligations.CircleStaysInItsRing : Prop :=
  ∀ r : Int, 1 ≤ r → (oct r).head? = some { x := 0, y := r } ∧ (∀ p ∈ oct r, 0 ≤ p.x ∧ p.x ≤ p.y ∧ p.y ≤ r) ∧
    (∀ (n : Nat) (p q : Pixel), (oct r)[n]? = some p → (oct r)[n + 1]? = some q →
      q.x = p.x + 1 ∧ (q.y = p.y ∨ q.y = p.y - 1)) ∧
    (∀ (n : Nat) (p : Pixel), (oct r)[n]? = some p → p.x = (n : Int)) ∧
    (∀ x y : Int, { x := x, y := y } ∈ oct r ↔ 0 ≤ x ∧ x ≤ y ∧
      (2 * y - 1) * (2 * y - 1) ≤ 4 * (r * r - x * x) ∧ 4 * (r * r - x * x) < (2 * y + 1) * (2 * y + 1)) ∧
    (∀ p : Pixel, (oct r).getLast? = some p → p.y - p.x ≤ 1) ∧
    ∀ p ∈ seqCircle 0 0 r,
      (2 * r - 1) * (2 * r - 1) ≤ 4 * (p.x * p.x + p.y * p.y) ∧ 4 * (p.x * p.x + p.y * p.y) < (2 * r + 1) * (2 * r + 1)

/-- R93: the outline is the octant walk and its eight mirror images, and nothing else; the circle around `(cx, cy)` is the one around
the origin moved there. R94 (b): it has the eight symmetries. -/
def Obligations.CircleSymmetries : Prop :=
  ∀ (r x y : Int), 0 ≤ r →
    ({ x := x, y := y } ∈ seqCircle 0 0 r ↔
      { x := (min x.natAbs y.natAbs : Nat), y := (max x.natAbs y.natAbs : Nat) } ∈ oct r) ∧
    ({ x := x, y := y } ∈ seqCircle 0 0 r →
      { x := -x, y := y } ∈ seqCircle 0 0 r ∧ { x := x, y := -y } ∈ seqCircle 0 0 r ∧ { x := y, y := x } ∈ seqCircle 0 0 r) ∧
    ∀ cx cy : Int, { x := cx + x, y := cy + y } ∈ seqCircle cx cy r ↔ { x := x, y := y } ∈ seqCircle 0 0 r

/-- R96 (b), (c), (e): the disc contains the outline, each of its rows is one complete segment between two outline pixels, and every
pixel is nearer to the centre than `r + 1/2`. R95: the disc around `(cx, cy)` is the one around the origin moved there. -/
def Obligations.DiscFillsTheCircle : Prop :=
  ∀ r : Int, 0 ≤ r →
    (∀ p ∈ seqCircle 0 0 r, p ∈ seqDisc 0 0 r) ∧
    (∀ p ∈ seqDisc 0 0 r, ∃ m : Int, p.x.natAbs ≤ m ∧ { x := m, y := p.y } ∈ seqCircle 0 0 r ∧
      { x := -m, y := p.y } ∈ seqCircle 0 0 r ∧ ∀ x : Int, { x := x, y := p.y } ∈ seqDisc 0 0 r ↔ -m ≤ x ∧ x ≤ m) ∧
    (∀ p ∈ seqDisc 0 0 r, 4 * (p.x * p.x + p.y * p.y) < (2 * r + 1) * (2 * r + 1)) ∧
    ∀ cx cy x y : Int, { x := cx + x, y := cy + y } ∈ seqDisc cx cy r ↔ { x := x, y := y } ∈ seqDisc 0 0 r

/-- R107, R110 (c): the quadrant walk goes from `(0, ry)` to `(rx, 0)`; each point follows from the one before by the decisions
`F1` and `F2` (region 1 while `b2*x < a2*y`, then region 2, then the tip on row 0), so that consecutive points differ by at most 1 in
`x` and in `y`. R109: the outline is that walk and its mirror images, and nothing else. R110 (b), (d): the bounding box of the outline is exact and it has its mirror symmetries. R112 (b), (c): it lies in
the filled ellipse, each of whose rows is one complete segment between two outline pixels. R109, R111: the ellipse around `(cx, cy)`,
outline or filled, is the one around the origin moved there. -/
def Obligations.EllipseBoundingBoxIsExact : Prop :=
  ∀ rx ry : Int, 1 ≤ rx → 1 ≤ ry →
    ((quad rx ry).head? = some { x := 0, y := ry } ∧ (quad rx ry).getLast? = some { x := rx, y := 0 } ∧
      ∀ (n : Nat) (p q : Pixel), (quad rx ry)[n]? = some p → (quad rx ry)[n + 1]? = some q →
        (p.x ≤ q.x ∧ q.x ≤ p.x + 1 ∧ q.y ≤ p.y ∧ p.y ≤ q.y + 1 ∧ p ≠ q) ∧
        (if ry * ry * p.x < rx * rx * p.y then
          q.x = p.x + 1 ∧ (q.y = p.y - 1 ↔
            4 * (ry * ry) * (p.x + 1) ^ 2 + rx * rx * (2 * p.y - 1) ^ 2 - 4 * (rx * rx) * (ry * ry) ≥ 0)
        else if 0 < p.y then
          q.y = p.y - 1 ∧ (q.x = p.x + 1 ↔
            ry * ry * (2 * p.x + 1) ^ 2 + 4 * (rx * rx) * (p.y - 1) ^ 2 - 4 * (rx * rx) * (ry * ry) ≤ 0)
        else q.x = p.x + 1 ∧ q.y = 0)) ∧
    (∀ x y : Int, { x := x, y := y } ∈ seqEllipse 0 0 rx ry ↔ { x := (x.natAbs : Nat), y := (y.natAbs : Nat) } ∈ quad rx ry) ∧
    (∀ p ∈ seqEllipse 0 0 rx ry, (p.x.natAbs : Int) ≤ rx ∧ (p.y.natAbs : Int) ≤ ry ∧
      { x := -p.x, y := p.y } ∈ seqEllipse 0 0 rx ry ∧ { x := p.x, y := -p.y } ∈ seqEllipse 0 0 rx ry ∧
      p ∈ seqEllipseFilled 0 0 rx ry) ∧
    { x := rx, y := 0 } ∈ seqEllipse 0 0 rx ry ∧ { x := 0, y := ry } ∈ seqEllipse 0 0 rx ry ∧
    (∀ p ∈ seqEllipseFilled 0 0 rx ry, (p.x.natAbs : Int) ≤ rx ∧ (p.y.natAbs : Int) ≤ ry ∧
      ∃ m : Int, p.x.natAbs ≤ m ∧ { x := m, y := p.y } ∈ seqEllipse 0 0 rx ry ∧
        { x := -m, y := p.y } ∈ seqEllipse 0 0 rx ry ∧
        ∀ x : Int, { x := x, y := p.y } ∈ seqEllipseFilled 0 0 rx ry ↔ -m ≤ x ∧ x ≤ m) ∧
    ∀ cx cy x y : Int,
      ({ x := cx + x, y := cy + y } ∈ seqEllipse cx cy rx ry ↔ { x := x, y := y } ∈ seqEllipse 0 0 rx ry) ∧
      ({ x := cx + x, y := cy + y } ∈ seqEllipseFilled cx cy rx ry ↔ { x := x, y := y } ∈ seqEllipseFilled 0 0 rx ry)

/-- R21: the write sequence of a drawing command that has no negative radius is not empty and holds no pixel twice. -/
def Obligations.WriteSequencesHoldNoPixelTwice : Prop :=
  ∀ (i : Instr) (seq : List Pixel) (r : Ras), drawSequence i = some seq → drawFault r i ≠ some .negRadius →
    seq ≠ [] ∧ seq.Nodup

/-- R82, R98, R114, R126, R173: the bounds check is exact: a drawing command with no negative radius passes it if and only if every
pixel of its write sequence is on the Surface. That a circle or ellipse past column or row 32767 of a larger Surface passes it is the
model's choice (log 13): R98, R114 and R173 let it pass, R42 says that it cannot be drawn. -/
def Obligations.BoundsCheckIsExact : Prop :=
  ∀ (i : Instr) (seq : List Pixel) (r : Ras), drawSequence i = some seq → drawFault r i ≠ some .negRadius →
    (drawFault r i = none ↔ ∀ p ∈ seq, onSurface r.lw r.lh p.x p.y = true)

/-! ### Invariants that every step keeps -/

/-- R12, R27: at most one of `BUSY`, `DONE`, `ERR` is 1, in both units. -/
def Obligations.StepKeepsFlagsExclusive : Prop :=
  ∀ s t : State, s.flagsInv → step s = .next t → t.flagsInv

/-- R13, R28, R176, R177, R180: what the fault registers hold. -/
def Obligations.StepKeepsFaultRecords : Prop :=
  ∀ s t : State, s.faultInv → step s = .next t → t.faultInv

/-- R21, R22: while `BUSY = 1` the sequence is that of the latched command, and every pixel of it is on the latched Surface, so that
the assertion of R43 never fires. -/
def Obligations.StepKeepsPixelsOnTheSurface : Prop :=
  (∀ s t : State, s.ras.seqInv → s.ras.onSurfaceInv → step s = .next t → t.ras.seqInv ∧ t.ras.onSurfaceInv) ∧
  ∀ s : State, s.ras.onSurfaceInv → step s ≠ .fault .pixelOffSurface

/-- R17, R18: while `BUSY = 1`, `k = RAS_PIXCNT`, at most the length of `SEQ`, and the register never overflows. -/
def Obligations.StepKeepsThePixelCount : Prop :=
  ∀ s t : State, s.ras.countInv → step s = .next t → t.ras.countInv

/-- R33, R131, R133, R139: while `BUSY = 1` the outstanding transfer is the one of the latched command's phase; the model's fault for
another state is never taken (log 18). -/
def Obligations.StepKeepsTheTransferInFlight : Prop :=
  (∀ s t : State, s.transferInv → step s = .next t → t.transferInv) ∧
  ∀ s : State, s.transferInv → step s ≠ .fault .rdvPhase

/-- The canonical form of the pixel store (the model's own, log 4) is kept by every step. -/
def Obligations.StepKeepsThePixelStoreCanonical : Prop :=
  ∀ s t : State, s.surface.wf = true → step s = .next t → t.surface.wf = true

/-- R12, R13, R28, R33, R35: the machine after reset meets every invariant above. -/
def Obligations.ResetMeetsTheInvariants : Prop :=
  State.reset.flagsInv ∧ State.reset.faultInv ∧ State.reset.ras.seqInv ∧ State.reset.ras.onSurfaceInv ∧
  State.reset.ras.countInv ∧ State.reset.transferInv ∧ State.reset.surface.wf = true

/-- R179, R199, R207: with the invariants, the provider's true dimensions and no action of another agent or ill-formed answer, a step
never stops: nothing the host or the engines do ends a run. -/
def Obligations.NoStepStopsOfItself : Prop :=
  ∀ s : State, s.ras.onSurfaceInv → s.transferInv → (s.ras.busy = true → s.dimensionsHonest) →
    (∀ (idx : Nat) (v : Color) (rest : List Event), s.script ≠ .surfaceWrite idx v :: rest) →
    (∀ (n : Nat) (a : BusAnswer) (rest : List Event) (q : BusRequest), s.script = .busAnswer n a :: rest →
      s.bus.trace[n]? = some q → BusAnswer.fits q a = true) →
    stepSafe s

/-! ### The sensor sequences -/

/-- R157: `SENSOR.INIT` over full transfers: `Success` exactly when the echoed byte is 0x03, and no fault in either case. -/
def Obligations.SensorInitVerifiesTheEcho : Prop :=
  ∀ (sel e : Byte) (s : State), rdvIdle s →
    (sensorInit sel [.count 2, .count 2, .count 1, .bytes [e]] s).outcome =
      (if e = 0x03 then .success () else .initVerificationFailed) ∧
    (sensorInit sel [.count 2, .count 2, .count 1, .bytes [e]] s).state.rdv.err = false ∧
    (sensorInit sel [.count 2, .count 2, .count 1, .bytes [e]] s).state.rdv.done = true ∧
    (sensorInit sel [.count 2, .count 2, .count 1, .bytes [e]] s).state.bus.trace = s.bus.trace ++
      [.write [0x80, sel], .write [0x80, 0x03], .write [0x80], .read 1]

/-- R159, R161, R162: for every `CHMAP`, the block read of `DATABLOCK` and the pair read at `0x10 + 2p` make the transfers of their
rules and decode the same eight device registers `d` (0x10 to 0x17) to the same value `reg[0x10+2p] | (reg[0x11+2p] << 8)`. -/
def Obligations.BlockReadEqualsPairReads : Prop :=
  ∀ (m : Chmap) (ch : Channel) (d : Fin 8 → Byte) (s s' : State), rdvIdle s → rdvIdle s' →
    ∃ (reading : Reading) (v : BitVec 16),
      v = BitVec.ofNat 16 ((d ⟨2 * (m.pair ch).val, by omega⟩).toNat + 256 * (d ⟨2 * (m.pair ch).val + 1, by omega⟩).toNat) ∧
      v = (match ch with
          | .green => reading.green
          | .red => reading.red
          | .blue => reading.blue
          | .clear => reading.clear) ∧
      (sensorRdall m [.count 2, .bytes [d 0, d 1, d 2, d 3, d 4, d 5, d 6, d 7]] s).outcome = .success reading ∧
      (sensorRdall m [.count 2, .bytes [d 0, d 1, d 2, d 3, d 4, d 5, d 6, d 7]] s).state.bus.trace =
        s.bus.trace ++ [.write [0xCF, 0x08], .read 8] ∧
      (sensorRdchan m ch [.count 1, .bytes [d ⟨2 * (m.pair ch).val, by omega⟩], .count 1,
        .bytes [d ⟨2 * (m.pair ch).val + 1, by omega⟩]] s').outcome = .success v ∧
      (sensorRdchan m ch [.count 1, .bytes [d ⟨2 * (m.pair ch).val, by omega⟩], .count 1,
        .bytes [d ⟨2 * (m.pair ch).val + 1, by omega⟩]] s').state.bus.trace =
        s'.bus.trace ++ [.write [BitVec.ofNat 8 (0x90 + 2 * (m.pair ch).val)], .read 1,
          .write [BitVec.ofNat 8 (0x91 + 2 * (m.pair ch).val)], .read 1]

/-! ### The width of the Surface port -/

/-- R42: every pixel index of an accepted drawing command fits the 48 bits of the Surface port, so that the index carried is
`x + y*LW`; for `LINE`, `RECT` and `RECT.F`, and for every command on a Surface of at most 32768 columns and rows, the coordinates are
at most 32767 and the index is below 2^47. (R42 and R98, R114 disagree about round shapes on larger Surfaces: log 13.) -/
def Obligations.PixelIndexFitsItsPort : Prop :=
  ∀ (i : Instr) (seq : List Pixel) (r : Ras), drawSequence i = some seq → drawFault r i = none → ∀ p ∈ seq,
    0 ≤ p.x + p.y * (r.lw.toNat : Int) ∧ p.x + p.y * (r.lw.toNat : Int) < 2 ^ 48 ∧
    ((pixelIndex r.lw p).toNat : Int) = p.x + p.y * (r.lw.toNat : Int) ∧
    (((∃ x1 y1 x2 y2 color, i = .line x1 y1 x2 y2 color ∨ i = .rect x1 y1 x2 y2 color ∨ i = .rectF x1 y1 x2 y2 color) ∨
        (r.lw.toNat ≤ 32768 ∧ r.lh.toNat ≤ 32768)) →
      0 ≤ p.x ∧ p.x ≤ 32767 ∧ 0 ≤ p.y ∧ p.y ≤ 32767 ∧ p.x + p.y * (r.lw.toNat : Int) < 2 ^ 47)
end

