-- ==== Sys2Proof/Laws/State.lean ====
section
/-! SUPPORT. One lemma per field per named update of the state: later proofs unfold none of these updates. -/

namespace Sys2Proof.Machine

/-! ### `rasLatch` (R20) -/

@[simp] theorem rasLatch_busy (c : RasWord) (r : Ras) : (rasLatch c r).busy = r.busy := rfl
@[simp] theorem rasLatch_done (c : RasWord) (r : Ras) : (rasLatch c r).done = false := rfl
@[simp] theorem rasLatch_err (c : RasWord) (r : Ras) : (rasLatch c r).err = r.err := rfl
@[simp] theorem rasLatch_ovr (c : RasWord) (r : Ras) : (rasLatch c r).ovr = r.ovr := rfl
@[simp] theorem rasLatch_errcode (c : RasWord) (r : Ras) : (rasLatch c r).errcode = r.errcode := rfl
@[simp] theorem rasLatch_errinfo (c : RasWord) (r : Ras) : (rasLatch c r).errinfo = r.errinfo := rfl
@[simp] theorem rasLatch_surfW (c : RasWord) (r : Ras) : (rasLatch c r).surfW = r.surfW := rfl
@[simp] theorem rasLatch_surfH (c : RasWord) (r : Ras) : (rasLatch c r).surfH = r.surfH := rfl
@[simp] theorem rasLatch_arg0 (c : RasWord) (r : Ras) : (rasLatch c r).arg0 = r.arg0 := rfl
@[simp] theorem rasLatch_arg1 (c : RasWord) (r : Ras) : (rasLatch c r).arg1 = r.arg1 := rfl
@[simp] theorem rasLatch_result (c : RasWord) (r : Ras) : (rasLatch c r).result = r.result := rfl
@[simp] theorem rasLatch_pixcnt (c : RasWord) (r : Ras) : (rasLatch c r).pixcnt = 0 := rfl
@[simp] theorem rasLatch_lcmd (c : RasWord) (r : Ras) : (rasLatch c r).lcmd = c := rfl
@[simp] theorem rasLatch_lw (c : RasWord) (r : Ras) : (rasLatch c r).lw = r.surfW := rfl
@[simp] theorem rasLatch_lh (c : RasWord) (r : Ras) : (rasLatch c r).lh = r.surfH := rfl
@[simp] theorem rasLatch_seq (c : RasWord) (r : Ras) : (rasLatch c r).seq = r.seq := rfl
@[simp] theorem rasLatch_k (c : RasWord) (r : Ras) : (rasLatch c r).k = 0 := rfl

/-! ### `rasRaise` (R176) -/

@[simp] theorem rasRaise_busy (f : FaultCode) (v : Word) (r : Ras) : (rasRaise f v r).busy = false := rfl
@[simp] theorem rasRaise_done (f : FaultCode) (v : Word) (r : Ras) : (rasRaise f v r).done = false := rfl
@[simp] theorem rasRaise_err (f : FaultCode) (v : Word) (r : Ras) : (rasRaise f v r).err = true := rfl
@[simp] theorem rasRaise_ovr (f : FaultCode) (v : Word) (r : Ras) : (rasRaise f v r).ovr = r.ovr := rfl
@[simp] theorem rasRaise_errcode (f : FaultCode) (v : Word) (r : Ras) : (rasRaise f v r).errcode = f := rfl
@[simp] theorem rasRaise_errinfo (f : FaultCode) (v : Word) (r : Ras) : (rasRaise f v r).errinfo = v := rfl
@[simp] theorem rasRaise_surfW (f : FaultCode) (v : Word) (r : Ras) : (rasRaise f v r).surfW = r.surfW := rfl
@[simp] theorem rasRaise_surfH (f : FaultCode) (v : Word) (r : Ras) : (rasRaise f v r).surfH = r.surfH := rfl
@[simp] theorem rasRaise_arg0 (f : FaultCode) (v : Word) (r : Ras) : (rasRaise f v r).arg0 = r.arg0 := rfl
@[simp] theorem rasRaise_arg1 (f : FaultCode) (v : Word) (r : Ras) : (rasRaise f v r).arg1 = r.arg1 := rfl
@[simp] theorem rasRaise_result (f : FaultCode) (v : Word) (r : Ras) : (rasRaise f v r).result = r.result := rfl
@[simp] theorem rasRaise_pixcnt (f : FaultCode) (v : Word) (r : Ras) : (rasRaise f v r).pixcnt = r.pixcnt := rfl
@[simp] theorem rasRaise_lcmd (f : FaultCode) (v : Word) (r : Ras) : (rasRaise f v r).lcmd = r.lcmd := rfl
@[simp] theorem rasRaise_lw (f : FaultCode) (v : Word) (r : Ras) : (rasRaise f v r).lw = r.lw := rfl
@[simp] theorem rasRaise_lh (f : FaultCode) (v : Word) (r : Ras) : (rasRaise f v r).lh = r.lh := rfl
@[simp] theorem rasRaise_seq (f : FaultCode) (v : Word) (r : Ras) : (rasRaise f v r).seq = [] := rfl
@[simp] theorem rasRaise_k (f : FaultCode) (v : Word) (r : Ras) : (rasRaise f v r).k = 0 := rfl

/-! ### `rasClearErr` (R14, R181) -/

@[simp] theorem rasClearErr_busy (r : Ras) : (rasClearErr r).busy = r.busy := rfl
@[simp] theorem rasClearErr_done (r : Ras) : (rasClearErr r).done = r.done := rfl
@[simp] theorem rasClearErr_err (r : Ras) : (rasClearErr r).err = false := rfl
@[simp] theorem rasClearErr_ovr (r : Ras) : (rasClearErr r).ovr = r.ovr := rfl
@[simp] theorem rasClearErr_errcode (r : Ras) : (rasClearErr r).errcode = .none := rfl
@[simp] theorem rasClearErr_errinfo (r : Ras) : (rasClearErr r).errinfo = 0 := rfl
@[simp] theorem rasClearErr_surfW (r : Ras) : (rasClearErr r).surfW = r.surfW := rfl
@[simp] theorem rasClearErr_surfH (r : Ras) : (rasClearErr r).surfH = r.surfH := rfl
@[simp] theorem rasClearErr_arg0 (r : Ras) : (rasClearErr r).arg0 = r.arg0 := rfl
@[simp] theorem rasClearErr_arg1 (r : Ras) : (rasClearErr r).arg1 = r.arg1 := rfl
@[simp] theorem rasClearErr_result (r : Ras) : (rasClearErr r).result = r.result := rfl
@[simp] theorem rasClearErr_pixcnt (r : Ras) : (rasClearErr r).pixcnt = r.pixcnt := rfl
@[simp] theorem rasClearErr_lcmd (r : Ras) : (rasClearErr r).lcmd = r.lcmd := rfl
@[simp] theorem rasClearErr_lw (r : Ras) : (rasClearErr r).lw = r.lw := rfl
@[simp] theorem rasClearErr_lh (r : Ras) : (rasClearErr r).lh = r.lh := rfl
@[simp] theorem rasClearErr_seq (r : Ras) : (rasClearErr r).seq = r.seq := rfl
@[simp] theorem rasClearErr_k (r : Ras) : (rasClearErr r).k = r.k := rfl

/-! ### `rasBegin` (R20) -/

@[simp] theorem rasBegin_busy (sq : List Pixel) (r : Ras) : (rasBegin sq r).busy = true := rfl
@[simp] theorem rasBegin_done (sq : List Pixel) (r : Ras) : (rasBegin sq r).done = r.done := rfl
@[simp] theorem rasBegin_err (sq : List Pixel) (r : Ras) : (rasBegin sq r).err = r.err := rfl
@[simp] theorem rasBegin_ovr (sq : List Pixel) (r : Ras) : (rasBegin sq r).ovr = r.ovr := rfl
@[simp] theorem rasBegin_errcode (sq : List Pixel) (r : Ras) : (rasBegin sq r).errcode = r.errcode := rfl
@[simp] theorem rasBegin_errinfo (sq : List Pixel) (r : Ras) : (rasBegin sq r).errinfo = r.errinfo := rfl
@[simp] theorem rasBegin_surfW (sq : List Pixel) (r : Ras) : (rasBegin sq r).surfW = r.surfW := rfl
@[simp] theorem rasBegin_surfH (sq : List Pixel) (r : Ras) : (rasBegin sq r).surfH = r.surfH := rfl
@[simp] theorem rasBegin_arg0 (sq : List Pixel) (r : Ras) : (rasBegin sq r).arg0 = r.arg0 := rfl
@[simp] theorem rasBegin_arg1 (sq : List Pixel) (r : Ras) : (rasBegin sq r).arg1 = r.arg1 := rfl
@[simp] theorem rasBegin_result (sq : List Pixel) (r : Ras) : (rasBegin sq r).result = r.result := rfl
@[simp] theorem rasBegin_pixcnt (sq : List Pixel) (r : Ras) : (rasBegin sq r).pixcnt = r.pixcnt := rfl
@[simp] theorem rasBegin_lcmd (sq : List Pixel) (r : Ras) : (rasBegin sq r).lcmd = r.lcmd := rfl
@[simp] theorem rasBegin_lw (sq : List Pixel) (r : Ras) : (rasBegin sq r).lw = r.lw := rfl
@[simp] theorem rasBegin_lh (sq : List Pixel) (r : Ras) : (rasBegin sq r).lh = r.lh := rfl
@[simp] theorem rasBegin_seq (sq : List Pixel) (r : Ras) : (rasBegin sq r).seq = sq := rfl
@[simp] theorem rasBegin_k (sq : List Pixel) (r : Ras) : (rasBegin sq r).k = r.k := rfl

/-! ### `rasFinish` (R23) -/

@[simp] theorem rasFinish_busy (r : Ras) : (rasFinish r).busy = false := rfl
@[simp] theorem rasFinish_done (r : Ras) : (rasFinish r).done = true := rfl
@[simp] theorem rasFinish_err (r : Ras) : (rasFinish r).err = r.err := rfl
@[simp] theorem rasFinish_ovr (r : Ras) : (rasFinish r).ovr = r.ovr := rfl
@[simp] theorem rasFinish_errcode (r : Ras) : (rasFinish r).errcode = r.errcode := rfl
@[simp] theorem rasFinish_errinfo (r : Ras) : (rasFinish r).errinfo = r.errinfo := rfl
@[simp] theorem rasFinish_surfW (r : Ras) : (rasFinish r).surfW = r.surfW := rfl
@[simp] theorem rasFinish_surfH (r : Ras) : (rasFinish r).surfH = r.surfH := rfl
@[simp] theorem rasFinish_arg0 (r : Ras) : (rasFinish r).arg0 = r.arg0 := rfl
@[simp] theorem rasFinish_arg1 (r : Ras) : (rasFinish r).arg1 = r.arg1 := rfl
@[simp] theorem rasFinish_result (r : Ras) : (rasFinish r).result = r.result := rfl
@[simp] theorem rasFinish_pixcnt (r : Ras) : (rasFinish r).pixcnt = r.pixcnt := rfl
@[simp] theorem rasFinish_lcmd (r : Ras) : (rasFinish r).lcmd = r.lcmd := rfl
@[simp] theorem rasFinish_lw (r : Ras) : (rasFinish r).lw = r.lw := rfl
@[simp] theorem rasFinish_lh (r : Ras) : (rasFinish r).lh = r.lh := rfl
@[simp] theorem rasFinish_seq (r : Ras) : (rasFinish r).seq = r.seq := rfl
@[simp] theorem rasFinish_k (r : Ras) : (rasFinish r).k = r.k := rfl

/-! ### `rdvLatch` (R132) -/

@[simp] theorem rdvLatch_busy (v : Word) (r : Rdv) : (rdvLatch v r).busy = r.busy := rfl
@[simp] theorem rdvLatch_done (v : Word) (r : Rdv) : (rdvLatch v r).done = false := rfl
@[simp] theorem rdvLatch_err (v : Word) (r : Rdv) : (rdvLatch v r).err = r.err := rfl
@[simp] theorem rdvLatch_ovr (v : Word) (r : Rdv) : (rdvLatch v r).ovr = r.ovr := rfl
@[simp] theorem rdvLatch_errcode (v : Word) (r : Rdv) : (rdvLatch v r).errcode = r.errcode := rfl
@[simp] theorem rdvLatch_errinfo (v : Word) (r : Rdv) : (rdvLatch v r).errinfo = r.errinfo := rfl
@[simp] theorem rdvLatch_xfer (v : Word) (r : Rdv) : (rdvLatch v r).xfer = r.xfer := rfl
@[simp] theorem rdvLatch_lrc (v : Word) (r : Rdv) : (rdvLatch v r).lrc = v := rfl
@[simp] theorem rdvLatch_data (v : Word) (r : Rdv) : (rdvLatch v r).data = r.data := rfl
@[simp] theorem rdvLatch_buf (v : Word) (r : Rdv) : (rdvLatch v r).buf = r.buf := rfl
@[simp] theorem rdvLatch_ph (v : Word) (r : Rdv) : (rdvLatch v r).ph = r.ph := rfl
@[simp] theorem rdvLatch_lo (v : Word) (r : Rdv) : (rdvLatch v r).lo = r.lo := rfl

/-! ### `rdvRaise` (R177) -/

@[simp] theorem rdvRaise_busy (f : FaultCode) (v : Word) (x : Xfer) (r : Rdv) : (rdvRaise f v x r).busy = false := rfl
@[simp] theorem rdvRaise_done (f : FaultCode) (v : Word) (x : Xfer) (r : Rdv) : (rdvRaise f v x r).done = false := rfl
@[simp] theorem rdvRaise_err (f : FaultCode) (v : Word) (x : Xfer) (r : Rdv) : (rdvRaise f v x r).err = true := rfl
@[simp] theorem rdvRaise_ovr (f : FaultCode) (v : Word) (x : Xfer) (r : Rdv) : (rdvRaise f v x r).ovr = r.ovr := rfl
@[simp] theorem rdvRaise_errcode (f : FaultCode) (v : Word) (x : Xfer) (r : Rdv) : (rdvRaise f v x r).errcode = f := rfl
@[simp] theorem rdvRaise_errinfo (f : FaultCode) (v : Word) (x : Xfer) (r : Rdv) : (rdvRaise f v x r).errinfo = v := rfl
@[simp] theorem rdvRaise_xfer (f : FaultCode) (v : Word) (x : Xfer) (r : Rdv) : (rdvRaise f v x r).xfer = x := rfl
@[simp] theorem rdvRaise_lrc (f : FaultCode) (v : Word) (x : Xfer) (r : Rdv) : (rdvRaise f v x r).lrc = r.lrc := rfl
@[simp] theorem rdvRaise_data (f : FaultCode) (v : Word) (x : Xfer) (r : Rdv) : (rdvRaise f v x r).data = r.data := rfl
@[simp] theorem rdvRaise_buf (f : FaultCode) (v : Word) (x : Xfer) (r : Rdv) : (rdvRaise f v x r).buf = r.buf := rfl
@[simp] theorem rdvRaise_ph (f : FaultCode) (v : Word) (x : Xfer) (r : Rdv) : (rdvRaise f v x r).ph = none := rfl
@[simp] theorem rdvRaise_lo (f : FaultCode) (v : Word) (x : Xfer) (r : Rdv) : (rdvRaise f v x r).lo = r.lo := rfl

/-! ### `rdvBusError` (R177) -/

@[simp] theorem rdvBusError_busy (q g : Nat) (p b : Bool) (r : Rdv) : (rdvBusError q g p b r).busy = false := rfl
@[simp] theorem rdvBusError_done (q g : Nat) (p b : Bool) (r : Rdv) : (rdvBusError q g p b r).done = false := rfl
@[simp] theorem rdvBusError_err (q g : Nat) (p b : Bool) (r : Rdv) : (rdvBusError q g p b r).err = true := rfl
@[simp] theorem rdvBusError_ovr (q g : Nat) (p b : Bool) (r : Rdv) : (rdvBusError q g p b r).ovr = r.ovr := rfl
@[simp] theorem rdvBusError_errcode (q g : Nat) (p b : Bool) (r : Rdv) : (rdvBusError q g p b r).errcode = .busError := rfl
@[simp] theorem rdvBusError_errinfo (q g : Nat) (p b : Bool) (r : Rdv) : (rdvBusError q g p b r).errinfo = r.lrc := rfl
@[simp] theorem rdvBusError_xfer (q g : Nat) (p b : Bool) (r : Rdv) : (rdvBusError q g p b r).xfer = { req := BitVec.ofNat 8 q, got := BitVec.ofNat 8 g, ph := p, sub := b } := rfl
@[simp] theorem rdvBusError_lrc (q g : Nat) (p b : Bool) (r : Rdv) : (rdvBusError q g p b r).lrc = r.lrc := rfl
@[simp] theorem rdvBusError_data (q g : Nat) (p b : Bool) (r : Rdv) : (rdvBusError q g p b r).data = r.data := rfl
@[simp] theorem rdvBusError_buf (q g : Nat) (p b : Bool) (r : Rdv) : (rdvBusError q g p b r).buf = r.buf := rfl
@[simp] theorem rdvBusError_ph (q g : Nat) (p b : Bool) (r : Rdv) : (rdvBusError q g p b r).ph = none := rfl
@[simp] theorem rdvBusError_lo (q g : Nat) (p b : Bool) (r : Rdv) : (rdvBusError q g p b r).lo = 0 := rfl

/-! ### `rdvClearErr` (R29, R181) -/

@[simp] theorem rdvClearErr_busy (r : Rdv) : (rdvClearErr r).busy = r.busy := rfl
@[simp] theorem rdvClearErr_done (r : Rdv) : (rdvClearErr r).done = r.done := rfl
@[simp] theorem rdvClearErr_err (r : Rdv) : (rdvClearErr r).err = false := rfl
@[simp] theorem rdvClearErr_ovr (r : Rdv) : (rdvClearErr r).ovr = r.ovr := rfl
@[simp] theorem rdvClearErr_errcode (r : Rdv) : (rdvClearErr r).errcode = .none := rfl
@[simp] theorem rdvClearErr_errinfo (r : Rdv) : (rdvClearErr r).errinfo = 0 := rfl
@[simp] theorem rdvClearErr_xfer (r : Rdv) : (rdvClearErr r).xfer = Xfer.zero := rfl
@[simp] theorem rdvClearErr_lrc (r : Rdv) : (rdvClearErr r).lrc = r.lrc := rfl
@[simp] theorem rdvClearErr_data (r : Rdv) : (rdvClearErr r).data = r.data := rfl
@[simp] theorem rdvClearErr_buf (r : Rdv) : (rdvClearErr r).buf = r.buf := rfl
@[simp] theorem rdvClearErr_ph (r : Rdv) : (rdvClearErr r).ph = r.ph := rfl
@[simp] theorem rdvClearErr_lo (r : Rdv) : (rdvClearErr r).lo = r.lo := rfl

/-! ### `rdvFinish` (R139) -/

@[simp] theorem rdvFinish_busy (r : Rdv) : (rdvFinish r).busy = false := rfl
@[simp] theorem rdvFinish_done (r : Rdv) : (rdvFinish r).done = true := rfl
@[simp] theorem rdvFinish_err (r : Rdv) : (rdvFinish r).err = r.err := rfl
@[simp] theorem rdvFinish_ovr (r : Rdv) : (rdvFinish r).ovr = r.ovr := rfl
@[simp] theorem rdvFinish_errcode (r : Rdv) : (rdvFinish r).errcode = r.errcode := rfl
@[simp] theorem rdvFinish_errinfo (r : Rdv) : (rdvFinish r).errinfo = r.errinfo := rfl
@[simp] theorem rdvFinish_xfer (r : Rdv) : (rdvFinish r).xfer = r.xfer := rfl
@[simp] theorem rdvFinish_lrc (r : Rdv) : (rdvFinish r).lrc = r.lrc := rfl
@[simp] theorem rdvFinish_data (r : Rdv) : (rdvFinish r).data = r.data := rfl
@[simp] theorem rdvFinish_buf (r : Rdv) : (rdvFinish r).buf = r.buf := rfl
@[simp] theorem rdvFinish_ph (r : Rdv) : (rdvFinish r).ph = none := rfl
@[simp] theorem rdvFinish_lo (r : Rdv) : (rdvFinish r).lo = r.lo := rfl

/-! ### `rdvRequest` (R133) -/

@[simp] theorem rdvRequest_ras (p : Phase) (q : BusRequest) (s : State) : (rdvRequest p q s).ras = s.ras := rfl
@[simp] theorem rdvRequest_rdv (p : Phase) (q : BusRequest) (s : State) : (rdvRequest p q s).rdv = { s.rdv with ph := some p } := rfl
@[simp] theorem rdvRequest_surface (p : Phase) (q : BusRequest) (s : State) : (rdvRequest p q s).surface = s.surface := rfl
@[simp] theorem rdvRequest_bus (p : Phase) (q : BusRequest) (s : State) : (rdvRequest p q s).bus = s.bus.issue q := rfl
@[simp] theorem rdvRequest_script (p : Phase) (q : BusRequest) (s : State) : (rdvRequest p q s).script = s.script := rfl
@[simp] theorem rdvRequest_readData (p : Phase) (q : BusRequest) (s : State) : (rdvRequest p q s).readData = s.readData := rfl

/-! ### `rdvFinishData` (R133) -/

@[simp] theorem rdvFinishData_ras (v : BitVec 16) (s : State) : (rdvFinishData v s).ras = s.ras := rfl
@[simp] theorem rdvFinishData_rdv (v : BitVec 16) (s : State) : (rdvFinishData v s).rdv = rdvFinish { s.rdv with data := v } := rfl
@[simp] theorem rdvFinishData_surface (v : BitVec 16) (s : State) : (rdvFinishData v s).surface = s.surface := rfl
@[simp] theorem rdvFinishData_bus (v : BitVec 16) (s : State) : (rdvFinishData v s).bus = s.bus := rfl
@[simp] theorem rdvFinishData_script (v : BitVec 16) (s : State) : (rdvFinishData v s).script = s.script := rfl
@[simp] theorem rdvFinishData_readData (v : BitVec 16) (s : State) : (rdvFinishData v s).readData = s.readData := rfl

/-! ### `rdvAbort` (R183) -/

@[simp] theorem rdvAbort_ras (s : State) : (rdvAbort s).ras = s.ras := rfl
@[simp] theorem rdvAbort_rdv (s : State) : (rdvAbort s).rdv = Rdv.reset := rfl
@[simp] theorem rdvAbort_surface (s : State) : (rdvAbort s).surface = s.surface := rfl
@[simp] theorem rdvAbort_bus (s : State) : (rdvAbort s).bus = s.bus.issue .close := rfl
@[simp] theorem rdvAbort_script (s : State) : (rdvAbort s).script = s.script := rfl
@[simp] theorem rdvAbort_readData (s : State) : (rdvAbort s).readData = s.readData := rfl

/-! ### `resetInput` (R195) -/

@[simp] theorem resetInput_ras (s : State) : (resetInput s).ras = Ras.reset := rfl
@[simp] theorem resetInput_rdv (s : State) : (resetInput s).rdv = Rdv.reset := rfl
@[simp] theorem resetInput_surface (s : State) : (resetInput s).surface = s.surface := rfl
@[simp] theorem resetInput_bus (s : State) : (resetInput s).bus = s.bus := rfl
@[simp] theorem resetInput_script (s : State) : (resetInput s).script = s.script := rfl
@[simp] theorem resetInput_readData (s : State) : (resetInput s).readData = s.readData := rfl

/-! ### `Surface.write` (R43) -/

@[simp] theorem surfaceWrite_width (sf : Surface) (i : Nat) (v : Color) : (sf.write i v).width = sf.width := rfl
@[simp] theorem surfaceWrite_height (sf : Surface) (i : Nat) (v : Color) : (sf.write i v).height = sf.height := rfl
@[simp] theorem surfaceWrite_pixels (sf : Surface) (i : Nat) (v : Color) : (sf.write i v).pixels = pixelInsert i v sf.pixels := rfl

/-! ### `Bus.issue` (R131) -/

@[simp] theorem busIssue_trace (b : Bus) (q : BusRequest) : (b.issue q).trace = b.trace ++ [q] := rfl

/-! ### The two units after reset (R35) -/

@[simp] theorem rasReset_busy : (Ras.reset).busy = false := rfl
@[simp] theorem rasReset_done : (Ras.reset).done = false := rfl
@[simp] theorem rasReset_err : (Ras.reset).err = false := rfl
@[simp] theorem rasReset_ovr : (Ras.reset).ovr = false := rfl
@[simp] theorem rasReset_errcode : (Ras.reset).errcode = .none := rfl
@[simp] theorem rasReset_errinfo : (Ras.reset).errinfo = 0 := rfl
@[simp] theorem rasReset_surfW : (Ras.reset).surfW = 0 := rfl
@[simp] theorem rasReset_surfH : (Ras.reset).surfH = 0 := rfl
@[simp] theorem rasReset_arg0 : (Ras.reset).arg0 = 0 := rfl
@[simp] theorem rasReset_arg1 : (Ras.reset).arg1 = 0 := rfl
@[simp] theorem rasReset_result : (Ras.reset).result = 0 := rfl
@[simp] theorem rasReset_pixcnt : (Ras.reset).pixcnt = 0 := rfl
@[simp] theorem rasReset_lcmd : (Ras.reset).lcmd = 0 := rfl
@[simp] theorem rasReset_lw : (Ras.reset).lw = 0 := rfl
@[simp] theorem rasReset_lh : (Ras.reset).lh = 0 := rfl
@[simp] theorem rasReset_seq : (Ras.reset).seq = [] := rfl
@[simp] theorem rasReset_k : (Ras.reset).k = 0 := rfl

/-! ### Unit RDV after reset (R35) -/

@[simp] theorem rdvReset_busy : (Rdv.reset).busy = false := rfl
@[simp] theorem rdvReset_done : (Rdv.reset).done = false := rfl
@[simp] theorem rdvReset_err : (Rdv.reset).err = false := rfl
@[simp] theorem rdvReset_ovr : (Rdv.reset).ovr = false := rfl
@[simp] theorem rdvReset_errcode : (Rdv.reset).errcode = .none := rfl
@[simp] theorem rdvReset_errinfo : (Rdv.reset).errinfo = 0 := rfl
@[simp] theorem rdvReset_xfer : (Rdv.reset).xfer = Xfer.zero := rfl
@[simp] theorem rdvReset_lrc : (Rdv.reset).lrc = 0 := rfl
@[simp] theorem rdvReset_data : (Rdv.reset).data = 0 := rfl
@[simp] theorem rdvReset_buf : (Rdv.reset).buf = Vector.replicate 32 0 := rfl
@[simp] theorem rdvReset_ph : (Rdv.reset).ph = none := rfl
@[simp] theorem rdvReset_lo : (Rdv.reset).lo = 0 := rfl

/-! ### The machine after reset -/

@[simp] theorem reset_ras : (State.reset).ras = Ras.reset := rfl
@[simp] theorem reset_rdv : (State.reset).rdv = Rdv.reset := rfl
@[simp] theorem reset_surface : (State.reset).surface = { width := 0xFFFFFFFF, height := 0xFFFFFFFF, pixels := [] } := rfl
@[simp] theorem reset_bus : (State.reset).bus = { trace := [] } := rfl
@[simp] theorem reset_script : (State.reset).script = [] := rfl
@[simp] theorem reset_readData : (State.reset).readData = 0 := rfl

end Sys2Proof.Machine
end

