-- ==== Sys2Proof/Laws/Words.lean ====
section
/-! SUPPORT. The fields of an encoded command word, one lemma per field (R56, R61), and the fields put together again (R55). -/

namespace Sys2Proof

/-! ### Fields of an append -/

/-- A field of `x ++ y` that lies in `x`. -/
theorem extract_high {n m s k : Nat} (x : BitVec n) (y : BitVec m) :
    (x ++ y).extractLsb' (m + s) k = x.extractLsb' s k := by
  ext i hi
  simp [BitVec.getLsbD_append, show ¬ m + s + i < m by omega, show m + s + i - m = s + i by omega]

/-- The field of `x ++ y` that is `y`. -/
theorem extract_low {n m : Nat} (x : BitVec n) (y : BitVec m) : (x ++ y).extractLsb' 0 m = y := by
  ext i hi
  simp [BitVec.getLsbD_append, hi]

/-- A vector is all of itself. -/
theorem extract_all {n : Nat} (x : BitVec n) : x.extractLsb' 0 n = x := by
  ext i hi
  simp

section Ras
variable (op : Byte) (f : Bool) (col : Color) (a b cq d : Field16)

@[simp] theorem rasWord_op : (rasWord op f col a b cq d).op = op := extract_low _ op

@[simp] theorem rasWord_filled : (rasWord op f col a b cq d).filled = f := by
  have h : (rasWord op f col a b cq d).extractLsb' (8 + 0) 1 = BitVec.ofBool f :=
    (extract_high (d ++ cq ++ b ++ a ++ col ++ (0 : BitVec 7) ++ BitVec.ofBool f) op).trans (extract_low _ _)
  simpa [RasWord.filled] using congrArg (fun v : BitVec 1 => v.getLsbD 0) h

@[simp] theorem rasWord_rsv : (rasWord op f col a b cq d).rsv = 0 :=
  (extract_high (s := 1) (d ++ cq ++ b ++ a ++ col ++ (0 : BitVec 7) ++ BitVec.ofBool f) op).trans
    ((extract_high (s := 0) (d ++ cq ++ b ++ a ++ col ++ (0 : BitVec 7)) (BitVec.ofBool f)).trans
    (extract_low _ _))

@[simp] theorem rasWord_color : (rasWord op f col a b cq d).color = col :=
  (extract_high (s := 8) (d ++ cq ++ b ++ a ++ col ++ (0 : BitVec 7) ++ BitVec.ofBool f) op).trans
    ((extract_high (s := 7) (d ++ cq ++ b ++ a ++ col ++ (0 : BitVec 7)) (BitVec.ofBool f)).trans
    ((extract_high (s := 0) (d ++ cq ++ b ++ a ++ col) (0 : BitVec 7)).trans
    (extract_low _ _)))

@[simp] theorem rasWord_fieldA : (rasWord op f col a b cq d).fieldA = a :=
  (extract_high (s := 24) (d ++ cq ++ b ++ a ++ col ++ (0 : BitVec 7) ++ BitVec.ofBool f) op).trans
    ((extract_high (s := 23) (d ++ cq ++ b ++ a ++ col ++ (0 : BitVec 7)) (BitVec.ofBool f)).trans
    ((extract_high (s := 16) (d ++ cq ++ b ++ a ++ col) (0 : BitVec 7)).trans
    ((extract_high (s := 0) (d ++ cq ++ b ++ a) col).trans
    (extract_low _ _))))

@[simp] theorem rasWord_fieldB : (rasWord op f col a b cq d).fieldB = b :=
  (extract_high (s := 40) (d ++ cq ++ b ++ a ++ col ++ (0 : BitVec 7) ++ BitVec.ofBool f) op).trans
    ((extract_high (s := 39) (d ++ cq ++ b ++ a ++ col ++ (0 : BitVec 7)) (BitVec.ofBool f)).trans
    ((extract_high (s := 32) (d ++ cq ++ b ++ a ++ col) (0 : BitVec 7)).trans
    ((extract_high (s := 16) (d ++ cq ++ b ++ a) col).trans
    ((extract_high (s := 0) (d ++ cq ++ b) a).trans
    (extract_low _ _)))))

@[simp] theorem rasWord_fieldC : (rasWord op f col a b cq d).fieldC = cq :=
  (extract_high (s := 56) (d ++ cq ++ b ++ a ++ col ++ (0 : BitVec 7) ++ BitVec.ofBool f) op).trans
    ((extract_high (s := 55) (d ++ cq ++ b ++ a ++ col ++ (0 : BitVec 7)) (BitVec.ofBool f)).trans
    ((extract_high (s := 48) (d ++ cq ++ b ++ a ++ col) (0 : BitVec 7)).trans
    ((extract_high (s := 32) (d ++ cq ++ b ++ a) col).trans
    ((extract_high (s := 16) (d ++ cq ++ b) a).trans
    ((extract_high (s := 0) (d ++ cq) b).trans
    (extract_low _ _))))))

@[simp] theorem rasWord_fieldD : (rasWord op f col a b cq d).fieldD = d :=
  (extract_high (s := 72) (d ++ cq ++ b ++ a ++ col ++ (0 : BitVec 7) ++ BitVec.ofBool f) op).trans
    ((extract_high (s := 71) (d ++ cq ++ b ++ a ++ col ++ (0 : BitVec 7)) (BitVec.ofBool f)).trans
    ((extract_high (s := 64) (d ++ cq ++ b ++ a ++ col) (0 : BitVec 7)).trans
    ((extract_high (s := 48) (d ++ cq ++ b ++ a) col).trans
    ((extract_high (s := 32) (d ++ cq ++ b) a).trans
    ((extract_high (s := 16) (d ++ cq) b).trans
    ((extract_high (s := 0) (d) cq).trans
    (extract_all _)))))))

end Ras

section Pack
variable (r g b : Byte) (u : BitVec 40) (col : Color)

@[simp] theorem packWord_op : (packWord r g b u col).op = 0x05 := extract_low _ _

@[simp] theorem packWord_filled : (packWord r g b u col).filled = false := by
  have h : (packWord r g b u col).extractLsb' (8 + 0) 1 = 0 :=
    (extract_high (u ++ b ++ g ++ r ++ col ++ (0 : BitVec 7) ++ (0 : BitVec 1)) (0x05 : Byte)).trans (extract_low _ _)
  simpa [RasWord.filled] using congrArg (fun v : BitVec 1 => v.getLsbD 0) h

@[simp] theorem packWord_rsv : (packWord r g b u col).rsv = 0 :=
  (extract_high (s := 1) (u ++ b ++ g ++ r ++ col ++ (0 : BitVec 7) ++ (0 : BitVec 1)) (0x05 : Byte)).trans
    ((extract_high (s := 0) (u ++ b ++ g ++ r ++ col ++ (0 : BitVec 7)) (0 : BitVec 1)).trans
    (extract_low _ _))

@[simp] theorem packWord_color : (packWord r g b u col).color = col :=
  (extract_high (s := 8) (u ++ b ++ g ++ r ++ col ++ (0 : BitVec 7) ++ (0 : BitVec 1)) (0x05 : Byte)).trans
    ((extract_high (s := 7) (u ++ b ++ g ++ r ++ col ++ (0 : BitVec 7)) (0 : BitVec 1)).trans
    ((extract_high (s := 0) (u ++ b ++ g ++ r ++ col) (0 : BitVec 7)).trans
    (extract_low _ _)))

@[simp] theorem packWord_r8 : (packWord r g b u col).r8 = r :=
  (extract_high (s := 24) (u ++ b ++ g ++ r ++ col ++ (0 : BitVec 7) ++ (0 : BitVec 1)) (0x05 : Byte)).trans
    ((extract_high (s := 23) (u ++ b ++ g ++ r ++ col ++ (0 : BitVec 7)) (0 : BitVec 1)).trans
    ((extract_high (s := 16) (u ++ b ++ g ++ r ++ col) (0 : BitVec 7)).trans
    ((extract_high (s := 0) (u ++ b ++ g ++ r) col).trans
    (extract_low _ _))))

@[simp] theorem packWord_g8 : (packWord r g b u col).g8 = g :=
  (extract_high (s := 32) (u ++ b ++ g ++ r ++ col ++ (0 : BitVec 7) ++ (0 : BitVec 1)) (0x05 : Byte)).trans
    ((extract_high (s := 31) (u ++ b ++ g ++ r ++ col ++ (0 : BitVec 7)) (0 : BitVec 1)).trans
    ((extract_high (s := 24) (u ++ b ++ g ++ r ++ col) (0 : BitVec 7)).trans
    ((extract_high (s := 8) (u ++ b ++ g ++ r) col).trans
    ((extract_high (s := 0) (u ++ b ++ g) r).trans
    (extract_low _ _)))))

@[simp] theorem packWord_b8 : (packWord r g b u col).b8 = b :=
  (extract_high (s := 40) (u ++ b ++ g ++ r ++ col ++ (0 : BitVec 7) ++ (0 : BitVec 1)) (0x05 : Byte)).trans
    ((extract_high (s := 39) (u ++ b ++ g ++ r ++ col ++ (0 : BitVec 7)) (0 : BitVec 1)).trans
    ((extract_high (s := 32) (u ++ b ++ g ++ r ++ col) (0 : BitVec 7)).trans
    ((extract_high (s := 16) (u ++ b ++ g ++ r) col).trans
    ((extract_high (s := 8) (u ++ b ++ g) r).trans
    ((extract_high (s := 0) (u ++ b) g).trans
    (extract_low _ _))))))

@[simp] theorem packWord_unused : (packWord r g b u col).unused = u :=
  (extract_high (s := 48) (u ++ b ++ g ++ r ++ col ++ (0 : BitVec 7) ++ (0 : BitVec 1)) (0x05 : Byte)).trans
    ((extract_high (s := 47) (u ++ b ++ g ++ r ++ col ++ (0 : BitVec 7)) (0 : BitVec 1)).trans
    ((extract_high (s := 40) (u ++ b ++ g ++ r ++ col) (0 : BitVec 7)).trans
    ((extract_high (s := 24) (u ++ b ++ g ++ r) col).trans
    ((extract_high (s := 16) (u ++ b ++ g) r).trans
    ((extract_high (s := 8) (u ++ b) g).trans
    ((extract_high (s := 0) (u) b).trans
    (extract_all _)))))))

end Pack

section Rdv
variable (op addr opd : Byte)

@[simp] theorem rdvWord_op : rdvOp (rdvWord op addr opd) = op := extract_low _ op

@[simp] theorem rdvWord_addr : rdvAddr (rdvWord op addr opd) = addr :=
  (extract_high (s := 0) ((0 : Byte) ++ opd ++ addr) op).trans
    (extract_low _ _)

@[simp] theorem rdvWord_opd : rdvOpd (rdvWord op addr opd) = opd :=
  (extract_high (s := 8) ((0 : Byte) ++ opd ++ addr) op).trans
    ((extract_high (s := 0) ((0 : Byte) ++ opd) addr).trans
    (extract_low _ _))

@[simp] theorem rdvWord_rsv : rdvRsv (rdvWord op addr opd) = 0 :=
  (extract_high (s := 16) ((0 : Byte) ++ opd ++ addr) op).trans
    ((extract_high (s := 8) ((0 : Byte) ++ opd) addr).trans
    ((extract_high (s := 0) ((0 : Byte)) opd).trans
    (extract_all _)))

end Rdv

/-- Two neighbouring fields make one. -/
theorem extract_append {n : Nat} (x : BitVec n) (s k m : Nat) :
    x.extractLsb' (s + m) k ++ x.extractLsb' s m = x.extractLsb' s (k + m) := by
  ext i hi
  by_cases h : i < m
  · simp [BitVec.getElem_append, h]
  · simp [BitVec.getElem_append, h, show s + m + (i - m) = s + i by omega]

/-- The three register parts of a RAS word make the word again (R55). -/
@[simp] theorem rasWordOf_parts (c : RasWord) : rasWordOf c.arg1 c.arg0 c.cmdValue = c := by
  have h1 : c.arg1 ++ c.arg0 = c.extractLsb' 32 64 := extract_append c 32 32 32
  have h2 : c.extractLsb' 32 64 ++ c.cmdValue = c.extractLsb' 0 96 := extract_append c 0 64 32
  exact (congrArg (fun v : BitVec 64 => v ++ c.cmdValue) h1).trans (h2.trans (extract_all c))

/-- The value written to `RAS_CMD` is bits 31:0 of the word formed (R55). -/
@[simp] theorem rasWordOf_cmdValue (x y v : Word) : (rasWordOf x y v).cmdValue = v := extract_low (x ++ y) v

/-- An RDV word with `rsv` = 0 is the word of its fields (R61). -/
theorem rdvWord_fields (v : Word) (h : rdvRsv v = 0) : rdvWord (rdvOp v) (rdvAddr v) (rdvOpd v) = v := by
  have e1 : (0 : Byte) ++ rdvOpd v = v.extractLsb' 16 16 := by
    rw [← h]; exact extract_append v 16 8 8
  have e2 : v.extractLsb' 16 16 ++ rdvAddr v = v.extractLsb' 8 24 := extract_append v 8 16 8
  have e3 : v.extractLsb' 8 24 ++ rdvOp v = v.extractLsb' 0 32 := extract_append v 0 24 8
  rw [rdvWord, e1]
  exact (congrArg (fun w : BitVec 24 => w ++ rdvOp v) e2).trans (e3.trans (extract_all v))

/-- Bit 8 as a field of one bit. -/
theorem filled_extract (c : RasWord) : BitVec.ofBool c.filled = c.extractLsb' 8 1 := by
  ext i hi
  simp [RasWord.filled, show i = 0 by omega]

/-- A RAS word with `rsv` = 0 is the word of its fields (R56). -/
theorem rasWord_fields (c : RasWord) (h : c.rsv = 0) :
    rasWord c.op c.filled c.color c.fieldA c.fieldB c.fieldC c.fieldD = c := by
  have e1 : c.fieldD ++ c.fieldC = c.extractLsb' 64 32 := extract_append c 64 16 16
  have e2 : c.extractLsb' 64 32 ++ c.fieldB = c.extractLsb' 48 48 := extract_append c 48 32 16
  have e3 : c.extractLsb' 48 48 ++ c.fieldA = c.extractLsb' 32 64 := extract_append c 32 48 16
  have e4 : c.extractLsb' 32 64 ++ c.color = c.extractLsb' 16 80 := extract_append c 16 64 16
  have e5 : c.extractLsb' 16 80 ++ c.rsv = c.extractLsb' 9 87 := extract_append c 9 80 7
  have e6 : c.extractLsb' 9 87 ++ c.extractLsb' 8 1 = c.extractLsb' 8 88 := extract_append c 8 87 1
  have e7 : c.extractLsb' 8 88 ++ c.op = c.extractLsb' 0 96 := extract_append c 0 88 8
  rw [rasWord, filled_extract, ← h, e1, e2, e3, e4, e5, e6, e7]
  exact extract_all c

/-- A RAS word with opcode 0x05, `F` = 0 and `rsv` = 0 is the `PACK565` word of its fields (R56, R70). -/
theorem packWord_fields (c : RasWord) (h : c.rsv = 0) (hf : c.filled = false) (ho : c.op = 0x05) :
    packWord c.r8 c.g8 c.b8 c.unused c.color = c := by
  have e1 : c.unused ++ c.b8 = c.extractLsb' 48 48 := extract_append c 48 40 8
  have e2 : c.extractLsb' 48 48 ++ c.g8 = c.extractLsb' 40 56 := extract_append c 40 48 8
  have e3 : c.extractLsb' 40 56 ++ c.r8 = c.extractLsb' 32 64 := extract_append c 32 56 8
  have e4 : c.extractLsb' 32 64 ++ c.color = c.extractLsb' 16 80 := extract_append c 16 64 16
  have e5 : c.extractLsb' 16 80 ++ c.rsv = c.extractLsb' 9 87 := extract_append c 9 80 7
  have e6 : c.extractLsb' 9 87 ++ c.extractLsb' 8 1 = c.extractLsb' 8 88 := extract_append c 8 87 1
  have e7 : c.extractLsb' 8 88 ++ c.op = c.extractLsb' 0 96 := extract_append c 0 88 8
  have hf' : (0 : BitVec 1) = c.extractLsb' 8 1 := by rw [← filled_extract, hf]; rfl
  rw [packWord, ← h, ← ho, e1, e2, e3, e4, e5, hf', e6, e7]
  exact extract_all c

/-- The legal words of RAS are decoded to commands of RAS. -/
theorem decodeRas_isRas (c : RasWord) (i : Instr) (h : decodeRas c = .ok i) : i.isRas = true := by
  unfold decodeRas at h
  split_ifs at h <;> (cases h; rfl)

/-- The legal words of RDV are decoded to well-formed commands of RDV. -/
theorem decodeRdv_isRdv (v : Word) (i : Instr) (h : decodeRdv v = .ok i) : i.isRas = false ∧ i.wellFormed = true := by
  unfold decodeRdv at h
  split_ifs at h with _ _ _ _ _ hc
  all_goals (cases h; first | exact ⟨rfl, rfl⟩ | simp_all [Instr.isRas, Instr.wellFormed])

end Sys2Proof
end

