-- ==== Sys2Proof/Laws/Ops.lean ====
section
/-! SUPPORT. What each shared operation can do, said once: the accept steps, the engine's turn, the response steps, the host ports
and the step. -/

namespace Sys2Proof.Machine

/-! ### Words and their instructions -/

/-- A legal RDV word is the word of its instruction (R61, R62). -/
theorem encode_of_decodeRdv {v : Word} {i : Instr} (h : decodeRdv v = .ok i) : encode i = .rdv v := by
  unfold decodeRdv at h
  split_ifs at h with h0 h1 h2 h3 h4 h5 <;> cases h <;> simp only [encode, CommandWord.rdv.injEq]
  · rw [← h1]; exact rdvWord_fields v (not_not.1 h0)
  · rw [← h2]; exact rdvWord_fields v (not_not.1 h0)
  · rw [← h3]; exact rdvWord_fields v (not_not.1 h0)
  · rw [← h4]; exact rdvWord_fields v (not_not.1 h0)

/-- A legal RAS word is the word of its instruction (R56, R59). -/
theorem encode_of_decodeRas {c : RasWord} {i : Instr} (h : decodeRas c = .ok i) : encode i = .ras c := by
  have key : ∀ op f, c.op = op → c.filled = f → c.rsv = 0 →
      rasWord op f c.color c.fieldA c.fieldB c.fieldC c.fieldD = c := by
    rintro _ _ rfl rfl hr
    exact rasWord_fields c hr
  unfold decodeRas at h
  split_ifs at h with h0 h1 f h1 f h1 f h1 f h1 f <;> cases h
  · exact congrArg _ (key _ _ h1 (Bool.eq_false_iff.2 f) (not_not.1 h0))
  · exact congrArg _ (key _ _ h1 f (not_not.1 h0))
  · exact congrArg _ (key _ _ h1 (Bool.eq_false_iff.2 f) (not_not.1 h0))
  · exact congrArg _ (key _ _ h1 f (not_not.1 h0))
  · exact congrArg _ (key _ _ h1 (Bool.eq_false_iff.2 f) (not_not.1 h0))
  · exact congrArg _ (key _ _ h1 f (not_not.1 h0))
  · exact congrArg _ (key _ _ h1 (Bool.eq_false_iff.2 f) (not_not.1 h0))
  · exact congrArg _ (packWord_fields c (not_not.1 h0) (Bool.eq_false_iff.2 f) h1)

/-! ### Unit RAS -/

theorem ras_ready_iff (r : Ras) : r.ready = true ↔ r.busy = false ∧ r.err = false := by simp [Ras.ready]

theorem ras_not_ready_iff (r : Ras) : r.ready = false ↔ r.busy = true ∨ r.err = true := by
  cases h : r.busy <;> simp [Ras.ready, h]

/-- R20: an accepted RAS command. -/
theorem rasAccept_ready (c : RasWord) (body : Ras → Ras) (s : State) (hb : s.ras.busy = false) (he : s.ras.err = false) :
    rasAccept c body s = .next { s with ras := body (rasLatch c s.ras) } := by
  simp [rasAccept, rasIssue, Ras.ready, hb, he]

/-- R24: a dropped RAS command. -/
theorem rasAccept_dropped (c : RasWord) (body : Ras → Ras) (s : State) (h : s.ras.busy = true ∨ s.ras.err = true) :
    rasAccept c body s = .next { s with ras := { s.ras with ovr := true } } := by
  simp [rasAccept, rasIssue, (ras_not_ready_iff s.ras).2 h]

/-- All that a write of a RAS command word can do (R20, R24). -/
theorem rasAccept_cases {c : RasWord} {body : Ras → Ras} {s t : State} (h : rasAccept c body s = .next t) :
    (s.ras.busy = false ∧ s.ras.err = false ∧ t = { s with ras := body (rasLatch c s.ras) }) ∨
    ((s.ras.busy = true ∨ s.ras.err = true) ∧ t = { s with ras := { s.ras with ovr := true } }) := by
  cases hr : s.ras.ready with
  | true =>
    obtain ⟨hb, he⟩ := (ras_ready_iff _).1 hr
    rw [rasAccept_ready _ _ _ hb he] at h
    exact .inl ⟨hb, he, by cases h; rfl⟩
  | false =>
    have hd := (ras_not_ready_iff _).1 hr
    rw [rasAccept_dropped _ _ _ hd] at h
    exact .inr ⟨hd, by cases h; rfl⟩

/-- The command's own part of the accept step of a drawing command (R20, R176). -/
def drawBody (i : Instr) (c : RasWord) (seq : List Pixel) (r : Ras) : Ras :=
  match drawFault r i with
  | some f => rasRaise f c.cmdValue r
  | none => rasBegin seq r

/-- The seven drawing commands have one accept step. -/
theorem exec_drawing {i : Instr} {c : RasWord} {seq : List Pixel} (s : State) (hs : drawSequence i = some seq)
    (he : encode i = .ras c) : exec i s = rasAccept c (drawBody i c seq) s := by
  cases i <;> simp only [drawSequence, Option.some.injEq, reduceCtorEq] at hs <;>
    simp only [encode, CommandWord.ras.injEq] at he <;> subst hs <;> subst he <;>
    simp only [exec, execLine, execCircle, execCircleF, execEllipse, execEllipseF, execRect, execRectF] <;> congr 1 <;>
    funext r <;> simp only [drawBody, drawFault] <;> split <;> simp_all

/-- `PACK565` has its own (R70). -/
theorem exec_pack565 (r8 g8 b8 : Byte) (unused : BitVec 40) (color : Color) (s : State) :
    exec (.pack565 r8 g8 b8 unused color) s =
      rasAccept (packWord r8 g8 b8 unused color) (fun r => { r with result := pack565 r8 g8 b8, done := true }) s := rfl

/-- A RAS command is a drawing command or `PACK565`. -/
theorem isRas_cases {i : Instr} (h : i.isRas = true) :
    (∃ seq c, drawSequence i = some seq ∧ encode i = .ras c) ∨ ∃ r g b u col, i = .pack565 r g b u col := by
  cases i <;> simp_all [Instr.isRas, drawSequence, encode]

/-- A fault that the accept step of a drawing command takes is one of two (R172, R173). -/
theorem drawFault_code {r : Ras} {i : Instr} {f : FaultCode} (h : drawFault r i = some f) :
    f = .negRadius ∨ f = .outOfBounds := by
  cases i <;> simp only [drawFault, circleFault, ellipseFault, reduceCtorEq] at h <;> split_ifs at h <;> cases h <;> simp

/-- All that a pixel step can do (R22, R43). -/
theorem pixelStep_next {p : Pixel} {s t : State} (h : pixelStep p s = .next t) :
    onSurface s.ras.lw s.ras.lh p.x p.y = true ∧ (pixelIndex s.ras.lw p).toNat < s.surface.size ∧
    t = { s with
      surface := s.surface.write (pixelIndex s.ras.lw p).toNat s.ras.lcmd.color
      ras := { s.ras with k := s.ras.k + 1, pixcnt := s.ras.pixcnt + 1 } } := by
  unfold pixelStep at h
  split_ifs at h with h1 h2
  cases h
  exact ⟨by simpa using h1, by omega, rfl⟩

/-- A pixel step answers whenever the pixel is on the latched Surface and in the provider's store. -/
theorem pixelStep_ok {p : Pixel} {s : State} (h1 : onSurface s.ras.lw s.ras.lh p.x p.y = true)
    (h2 : (pixelIndex s.ras.lw p).toNat < s.surface.size) : pixelStep p s = .next { s with
      surface := s.surface.write (pixelIndex s.ras.lw p).toNat s.ras.lcmd.color
      ras := { s.ras with k := s.ras.k + 1, pixcnt := s.ras.pixcnt + 1 } } := by
  simp [pixelStep, h1, h2]

/-- All that the engine's turn can do (R22, R23, R190). -/
theorem rasTurn_cases {s t : State} (h : rasTurn s = .next t) :
    (s.ras.busy = true ∧ ∃ p, s.ras.seq[s.ras.k]? = some p ∧ pixelStep p s = .next t) ∨
    (s.ras.busy = true ∧ s.ras.k = s.ras.seq.length ∧ t = { s with ras := rasFinish s.ras }) ∨
    ((s.ras.busy = false ∨ s.ras.seq.length < s.ras.k) ∧ t = s) := by
  unfold rasTurn at h
  split at h
  · rename_i hb
    split at h
    · rename_i p hp
      exact .inl ⟨hb, p, hp, h⟩
    · rename_i hn
      split at h <;> cases h
      · exact .inr (.inl ⟨hb, ‹_›, rfl⟩)
      · exact .inr (.inr ⟨.inr (lt_of_le_of_ne (List.getElem?_eq_none_iff.1 hn) (Ne.symm ‹_›)), rfl⟩)
  · rename_i hb
    cases h
    exact .inr (.inr ⟨.inl (by simpa using hb), rfl⟩)

/-- All that a write of `RAS_CMD` can do (R20, R24, R171). -/
theorem rasCommand_cases {v : Word} {s t : State} (h : rasCommand v s = .next t) :
    ((s.ras.busy = true ∨ s.ras.err = true) ∧ t = { s with ras := { s.ras with ovr := true } }) ∨
    (s.ras.busy = false ∧ s.ras.err = false ∧ ∃ c, c = rasWordOf s.ras.arg1 s.ras.arg0 v ∧
      ((∃ i seq, decodeRas c = .ok i ∧ drawSequence i = some seq ∧
          t = { s with ras := drawBody i c seq (rasLatch c s.ras) }) ∨
        (∃ r g b u col, decodeRas c = .ok (.pack565 r g b u col) ∧
          t = { s with ras := { rasLatch c s.ras with result := pack565 r g b, done := true } }) ∨
        ((∃ e, decodeRas c = .error e) ∧ t = { s with ras := rasRaise .illegalCmd c.cmdValue (rasLatch c s.ras) }))) := by
  unfold rasCommand at h
  have split2 : ∀ {c body}, rasAccept c body s = .next t → c = rasWordOf s.ras.arg1 s.ras.arg0 v →
      ((s.ras.busy = true ∨ s.ras.err = true) ∧ t = { s with ras := { s.ras with ovr := true } }) ∨
      (s.ras.busy = false ∧ s.ras.err = false ∧ t = { s with ras := body (rasLatch c s.ras) }) :=
    fun h _ => (rasAccept_cases h).symm.imp id id
  split at h
  · rename_i i hi
    rcases isRas_cases (decodeRas_isRas _ i hi) with ⟨seq, c', hseq, -⟩ | ⟨r, g, b, u, col, rfl⟩
    · rw [exec_drawing s hseq (encode_of_decodeRas hi)] at h
      exact (split2 h rfl).imp id fun ⟨hb, he, ht⟩ => ⟨hb, he, _, rfl, .inl ⟨i, seq, hi, hseq, ht⟩⟩
    · have hc := encode_of_decodeRas hi
      simp only [encode, CommandWord.ras.injEq] at hc
      rw [exec_pack565, hc] at h
      exact (split2 h rfl).imp id fun ⟨hb, he, ht⟩ => ⟨hb, he, _, rfl, .inr (.inl ⟨r, g, b, u, col, hi, ht⟩)⟩
  · rename_i e hi
    exact (split2 h rfl).imp id fun ⟨hb, he, ht⟩ => ⟨hb, he, _, rfl, .inr (.inr ⟨⟨e, hi⟩, ht⟩)⟩

/-! ### Unit RDV -/

theorem rdv_ready_iff (r : Rdv) : r.ready = true ↔ r.busy = false ∧ r.err = false := by simp [Rdv.ready]

theorem rdv_not_ready_iff (r : Rdv) : r.ready = false ↔ r.busy = true ∨ r.err = true := by
  cases h : r.busy <;> simp [Rdv.ready, h]

/-- The first write transfer of an RDV command (R134 to R138). -/
def firstTransfer : Instr → List Byte
  | .rdbyte addr _ => rdbyteWrite addr
  | .wrbyte addr value => wrbyteWrite addr value
  | .rdpair lowAddr _ => rdpairWrite lowAddr
  | .rdblock blockAddr count => rdblockWrite blockAddr count
  | _ => []

/-- The four RDV commands have one accept step (R132). -/
theorem exec_rdv {i : Instr} {v : Word} (s : State) (hw : i.wellFormed = true) (he : encode i = .rdv v) :
    exec i s = .next (rdvIssue v (firstTransfer i) s) := by
  cases i <;> simp only [encode, CommandWord.rdv.injEq, reduceCtorEq] at he <;> subst he
  case rdblock => exact if_pos hw
  all_goals rfl

/-- R132: an accepted RDV command. -/
theorem rdvIssue_ready (v : Word) (w1 : List Byte) (s : State) (hb : s.rdv.busy = false) (he : s.rdv.err = false) :
    rdvIssue v w1 s = { s with
      rdv := { s.rdv with lrc := v, done := false, busy := true, ph := some .w1 }
      bus := { s.bus with trace := s.bus.trace ++ [.write w1] } } := by
  simp [rdvIssue, Rdv.ready, hb, he, rdvLatch, Bus.issue]

/-- R30: a dropped RDV command. -/
theorem rdvIssue_dropped (v : Word) (w1 : List Byte) (s : State) (h : s.rdv.busy = true ∨ s.rdv.err = true) :
    rdvIssue v w1 s = { s with rdv := { s.rdv with ovr := true } } := by
  simp [rdvIssue, (rdv_not_ready_iff s.rdv).2 h]

theorem rdvIllegal_ready (v : Word) (s : State) (hb : s.rdv.busy = false) (he : s.rdv.err = false) :
    rdvIllegal v s = .next { s with rdv := rdvRaise .illegalCmd v Xfer.zero (rdvLatch v s.rdv) } := by
  simp [rdvIllegal, Rdv.ready, hb, he]

theorem rdvIllegal_dropped (v : Word) (s : State) (h : s.rdv.busy = true ∨ s.rdv.err = true) :
    rdvIllegal v s = .next { s with rdv := { s.rdv with ovr := true } } := by
  simp [rdvIllegal, (rdv_not_ready_iff s.rdv).2 h]

/-- All that a write of `RDV_CMD` can do (R30, R132, R171). -/
theorem rdvCommand_cases {v : Word} {s t : State} (h : rdvCommand v s = .next t) :
    ((s.rdv.busy = true ∨ s.rdv.err = true) ∧ t = { s with rdv := { s.rdv with ovr := true } }) ∨
    (s.rdv.busy = false ∧ s.rdv.err = false ∧
      ((∃ i, decodeRdv v = .ok i ∧ t = { s with
          rdv := { s.rdv with lrc := v, done := false, busy := true, ph := some .w1 }
          bus := { s.bus with trace := s.bus.trace ++ [.write (firstTransfer i)] } }) ∨
        ((∃ e, decodeRdv v = .error e) ∧
          t = { s with rdv := rdvRaise .illegalCmd v Xfer.zero (rdvLatch v s.rdv) }))) := by
  have hex : ∀ i, decodeRdv v = .ok i → exec i s = .next (rdvIssue v (firstTransfer i) s) :=
    fun i hi => exec_rdv s (decodeRdv_isRdv v i hi).2 (encode_of_decodeRdv hi)
  unfold rdvCommand at h
  cases hr : s.rdv.ready with
  | true =>
    obtain ⟨hb, he⟩ := (rdv_ready_iff _).1 hr
    refine .inr ⟨hb, he, ?_⟩
    split at h
    · rename_i i hi
      rw [hex i hi, rdvIssue_ready _ _ _ hb he] at h
      exact .inl ⟨i, hi, by cases h; rfl⟩
    · rename_i e hi
      rw [rdvIllegal_ready _ _ hb he] at h
      exact .inr ⟨⟨e, hi⟩, by cases h; rfl⟩
  | false =>
    have hd := (rdv_not_ready_iff _).1 hr
    refine .inl ⟨hd, ?_⟩
    split at h
    · rename_i i hi
      rw [hex i hi, rdvIssue_dropped _ _ _ hd] at h
      cases h; rfl
    · rw [rdvIllegal_dropped _ _ hd] at h
      cases h; rfl

/-! ### Response steps of unit RDV -/

theorem afterWrite_cases (req : Nat) (sub : Bool) (k : Nat) (next : State → State) (s : State) :
    (k = req ∧ afterWrite req sub k next s = next s) ∨
    (k ≠ req ∧ afterWrite req sub k next s = { s with rdv := rdvBusError req k false sub s.rdv }) := by
  unfold afterWrite
  split <;> simp_all

theorem afterRead_cases (n : Nat) (sub : Bool) (bs : List Byte) (next : State → State) (s : State) :
    (bs.length = n ∧ afterRead n sub bs next s = next s) ∨
    (bs.length ≠ n ∧ afterRead n sub bs next s = { s with rdv := rdvBusError n bs.length true sub s.rdv }) := by
  unfold afterRead
  split <;> simp_all

/-- All that a response step can do (R133): the transfer was short; the next transfer of the command is requested; the command
finishes, with its result in `RDV_DATA` or the buffer. -/
theorem rdvResponse_cases {i : Instr} {ph : Phase} {a : BusAnswer} {s t : State} (h : rdvResponse i ph a s = .next t) :
    phaseFits i ph = true ∧
    ((∃ req got p sub, t = { s with rdv := rdvBusError req got p sub s.rdv }) ∨
     (∃ ph' lo, phaseFits i ph' = true ∧ t = { s with
        rdv := { s.rdv with ph := some ph', lo := lo }, bus := s.bus.issue (outstandingRequest i ph') }) ∨
     (∃ data buf, t = { s with rdv := rdvFinish { s.rdv with data := data, buf := buf } } ∧
        (data = s.rdv.data ∨ ∃ x o, i = .rdbyte x o ∨ i = .rdpair x o) ∧
        (buf = s.rdv.buf ∨ ∃ x n, i = .rdblock x n))) := by
  have onWrite : ∀ {req sub k next}, afterWrite req sub k next s = t →
      next s = t ∨ ∃ req got p sub, t = { s with rdv := rdvBusError req got p sub s.rdv } := by
    intro req sub k next h
    rcases afterWrite_cases req sub k next s with ⟨-, e⟩ | ⟨-, e⟩ <;> rw [e] at h
    · exact .inl h
    · exact .inr ⟨_, _, _, _, h.symm⟩
  have onRead : ∀ {n sub bs next}, afterRead n sub bs next s = t →
      next s = t ∨ ∃ req got p sub, t = { s with rdv := rdvBusError req got p sub s.rdv } := by
    intro n sub bs next h
    rcases afterRead_cases n sub bs next s with ⟨-, e⟩ | ⟨-, e⟩ <;> rw [e] at h
    · exact .inl h
    · exact .inr ⟨_, _, _, _, h.symm⟩
  cases i with
  | rdbyte addr opd =>
    rcases ph <;> rcases a <;> simp only [rdvResponse, rdbyteResponse, reduceCtorEq, Host.Outcome.next.injEq] at h
    · refine ⟨rfl, ?_⟩
      rcases onWrite h with h | h
      · exact .inr (.inl ⟨.r1, _, rfl, h.symm⟩)
      · exact .inl h
    · refine ⟨rfl, ?_⟩
      rcases onRead h with h | h
      · exact .inr (.inr ⟨_, s.rdv.buf, h.symm, .inr ⟨_, _, .inl rfl⟩, .inl rfl⟩)
      · exact .inl h
  | wrbyte addr value =>
    rcases ph <;> rcases a <;> simp only [rdvResponse, wrbyteResponse, reduceCtorEq, Host.Outcome.next.injEq] at h
    refine ⟨rfl, ?_⟩
    rcases onWrite h with h | h
    · exact .inr (.inr ⟨s.rdv.data, s.rdv.buf, h.symm, .inl rfl, .inl rfl⟩)
    · exact .inl h
  | rdpair lowAddr opd =>
    rcases ph <;> rcases a <;> simp only [rdvResponse, rdpairResponse, reduceCtorEq, Host.Outcome.next.injEq] at h
    · refine ⟨rfl, ?_⟩
      rcases onWrite h with h | h
      · exact .inr (.inl ⟨.r1, _, rfl, h.symm⟩)
      · exact .inl h
    · refine ⟨rfl, ?_⟩
      rcases onRead h with h | h
      · exact .inr (.inl ⟨.w2, _, rfl, h.symm⟩)
      · exact .inl h
    · refine ⟨rfl, ?_⟩
      rcases onWrite h with h | h
      · exact .inr (.inl ⟨.r2, _, rfl, h.symm⟩)
      · exact .inl h
    · refine ⟨rfl, ?_⟩
      rcases onRead h with h | h
      · exact .inr (.inr ⟨_, s.rdv.buf, h.symm, .inr ⟨_, _, .inr rfl⟩, .inl rfl⟩)
      · exact .inl h
  | rdblock blockAddr count =>
    rcases ph <;> rcases a <;> simp only [rdvResponse, rdblockResponse, reduceCtorEq, Host.Outcome.next.injEq] at h
    · refine ⟨rfl, ?_⟩
      rcases onWrite h with h | h
      · exact .inr (.inl ⟨.r1, _, rfl, h.symm⟩)
      · exact .inl h
    · refine ⟨rfl, ?_⟩
      rcases onRead h with h | h
      · exact .inr (.inr ⟨s.rdv.data, _, h.symm, .inl rfl, .inr ⟨_, _, rfl⟩⟩)
      · exact .inl h
  | _ => simp [rdvResponse] at h

/-- A response step answers whenever the phase is one of the command's and the answer is one to its outstanding request. -/
theorem rdvResponse_ok {i : Instr} {ph : Phase} {a : BusAnswer} (s : State) (hp : phaseFits i ph = true)
    (ha : BusAnswer.fits (outstandingRequest i ph) a = true) : ∃ t, rdvResponse i ph a s = .next t := by
  cases i <;> cases ph <;> simp only [phaseFits, Bool.false_eq_true] at hp <;> cases a <;>
    simp only [outstandingRequest, BusAnswer.fits, Bool.false_eq_true] at ha <;> exact ⟨_, rfl⟩

/-- The answer to the outstanding request is the response step of the command in flight (R133). -/
theorem takeAnswer_outstanding {s : State} {n : Nat} {a : BusAnswer} {q : BusRequest} {i : Instr} {ph : Phase}
    {before : List BusRequest} (hb : s.rdv.busy = true) (ht : s.bus.trace = before ++ [q]) (hn : n = before.length)
    (hf : BusAnswer.fits q a = true) (hp : s.rdv.ph = some ph) (hi : decodeRdv s.rdv.lrc = .ok i) :
    takeAnswer n a s = rdvResponse i ph a s := by
  subst hn
  simp [takeAnswer, hb, ht, hf, hp, hi]

/-- All that an answer of the Bus provider can do (R133, R183). -/
theorem takeAnswer_cases {n : Nat} {a : BusAnswer} {s t : State} (h : takeAnswer n a s = .next t) :
    (¬ (s.rdv.busy = true ∧ n + 1 = s.bus.trace.length) ∧ t = s) ∨
    (s.rdv.busy = true ∧ n + 1 = s.bus.trace.length ∧ ∃ q i ph, s.bus.trace[n]? = some q ∧ BusAnswer.fits q a = true ∧
      s.rdv.ph = some ph ∧ decodeRdv s.rdv.lrc = .ok i ∧ rdvResponse i ph a s = .next t) := by
  unfold takeAnswer at h
  split at h
  · rename_i hb
    refine .inr ⟨hb.1, hb.2, ?_⟩
    split at h
    · rename_i q hq
      split at h
      · rename_i hf
        split at h
        · rename_i ph i hph hi
          exact ⟨q, i, ph, hq, hf, hph, hi, h⟩
        · cases h
      · cases h
    · cases h
  · rename_i hb
    cases h
    exact .inl ⟨hb, rfl⟩

/-! ### The host ports and the step -/

/-- All that a host write to unit RAS can do (R10, R14 to R16). -/
theorem writeRas_cases {o : Offset} {v : Word} {s t : State} (h : writeRas o v s = .next t) :
    t = s ∨ t = { s with ras := rasCtrl v s.ras } ∨ t = { s with ras := { s.ras with surfW := v } } ∨
    t = { s with ras := { s.ras with surfH := v } } ∨ t = { s with ras := { s.ras with arg0 := v } } ∨
    t = { s with ras := { s.ras with arg1 := v } } ∨ rasCommand v s = .next t := by
  unfold writeRas at h
  split at h <;> first | (cases h; simp) | simp [h]

/-- All that a host write to unit RDV can do (R10, R29, R30). -/
theorem writeRdv_cases {o : Offset} {v : Word} {s t : State} (h : writeRdv o v s = .next t) :
    t = s ∨ t = rdvCtrl v s ∨ rdvCommand v s = .next t := by
  unfold writeRdv at h
  split at h <;> first | (cases h; simp) | simp [h]

/-- The step with no action in the schedule is the engine's turn. -/
theorem step_nil {s : State} (h : s.script = []) : step s = rasTurn s := by simp [step, advance, h]

/-- The step takes the next action of the schedule and performs it. -/
theorem step_cons {s : State} {e : Event} {rest : List Event} (h : s.script = e :: rest) :
    step s = perform e { s with script := rest } := by simp [step, advance, h]

/-- All that a step can do, by the action it takes. -/
theorem step_cases {s t : State} (h : step s = .next t) : ∃ s0, s0 = { s with script := s.script.tail } ∧
    (rasTurn s0 = .next t ∨ (∃ o v, writeRas o v s0 = .next t) ∨ (∃ o v, writeRdv o v s0 = .next t) ∨
     (∃ u o, t = { s0 with readData := hostRead u o s0 }) ∨ (∃ n a, takeAnswer n a s0 = .next t) ∨ t = resetInput s0 ∨
     (∃ idx v, s0.ras.busy = false ∧ idx < s0.surface.size ∧ t = { s0 with surface := s0.surface.write idx v })) := by
  refine ⟨_, rfl, ?_⟩
  cases hs : s.script with
  | nil =>
    rw [step_nil hs] at h
    have e : s = { s with script := s.script.tail } := by rw [hs, List.tail_nil, ← hs]
    rw [e] at h
    simp only [hs] at h
    exact .inl h
  | cons e rest =>
    rw [step_cons hs] at h
    cases e with
    | hostWrite u o v =>
      cases u
      · exact .inr (.inl ⟨o, v, h⟩)
      · exact .inr (.inr (.inl ⟨o, v, h⟩))
    | hostRead u o =>
      cases h
      exact .inr (.inr (.inr (.inl ⟨u, o, rfl⟩)))
    | rasTurn => exact .inl h
    | busAnswer n a => exact .inr (.inr (.inr (.inr (.inl ⟨n, a, h⟩))))
    | reset =>
      cases h
      exact .inr (.inr (.inr (.inr (.inr (.inl rfl)))))
    | surfaceWrite idx v =>
      simp only [perform, otherSurfaceWrite] at h
      split_ifs at h with hb hi
      cases h
      exact .inr (.inr (.inr (.inr (.inr (.inr ⟨idx, v, by simpa using hb, by simpa using hi, rfl⟩)))))

end Sys2Proof.Machine
end

