-- ==== Sys2Proof/Laws/PerInstr.lean ====
section
/-! SUPPORT. The laws that are proved instruction by instruction. -/

namespace Sys2Proof.Laws

/-- R59, R62: the word of an instruction is one of its own unit, with the reserved bits 0 (R64, R65). -/
def EncodeUnit.Statement (i : Instr) : Prop :=
  match encode i with
  | .ras c => i.isRas = true ∧ c.rsv = 0
  | .rdv v => i.isRas = false ∧ rdvRsv v = 0

theorem EncodeUnit.line (x1 y1 x2 y2 : Field16) (color : Color) :
    EncodeUnit.Statement (.line x1 y1 x2 y2 color) := ⟨rfl, rasWord_rsv ..⟩

theorem EncodeUnit.circle (cx cy radius d : Field16) (color : Color) :
    EncodeUnit.Statement (.circle cx cy radius d color) := ⟨rfl, rasWord_rsv ..⟩

theorem EncodeUnit.circleF (cx cy radius d : Field16) (color : Color) :
    EncodeUnit.Statement (.circleF cx cy radius d color) := ⟨rfl, rasWord_rsv ..⟩

theorem EncodeUnit.ellipse (cx cy rx ry : Field16) (color : Color) :
    EncodeUnit.Statement (.ellipse cx cy rx ry color) := ⟨rfl, rasWord_rsv ..⟩

theorem EncodeUnit.ellipseF (cx cy rx ry : Field16) (color : Color) :
    EncodeUnit.Statement (.ellipseF cx cy rx ry color) := ⟨rfl, rasWord_rsv ..⟩

theorem EncodeUnit.rect (x1 y1 x2 y2 : Field16) (color : Color) :
    EncodeUnit.Statement (.rect x1 y1 x2 y2 color) := ⟨rfl, rasWord_rsv ..⟩

theorem EncodeUnit.rectF (x1 y1 x2 y2 : Field16) (color : Color) :
    EncodeUnit.Statement (.rectF x1 y1 x2 y2 color) := ⟨rfl, rasWord_rsv ..⟩

theorem EncodeUnit.pack565 (r8 g8 b8 : Byte) (unused : BitVec 40) (color : Color) :
    EncodeUnit.Statement (.pack565 r8 g8 b8 unused color) := ⟨rfl, packWord_rsv ..⟩

theorem EncodeUnit.rdbyte (addr opd : Byte) : EncodeUnit.Statement (.rdbyte addr opd) := ⟨rfl, rdvWord_rsv ..⟩

theorem EncodeUnit.wrbyte (addr value : Byte) : EncodeUnit.Statement (.wrbyte addr value) := ⟨rfl, rdvWord_rsv ..⟩

theorem EncodeUnit.rdpair (lowAddr opd : Byte) : EncodeUnit.Statement (.rdpair lowAddr opd) := ⟨rfl, rdvWord_rsv ..⟩

theorem EncodeUnit.rdblock (blockAddr count : Byte) : EncodeUnit.Statement (.rdblock blockAddr count) := ⟨rfl, rdvWord_rsv ..⟩

end Sys2Proof.Laws
end

