-- ==== Sys2Proof/Laws/Surface.lean ====
section
/-! SUPPORT. The pixel store: read after write, and the canonical form that every operation keeps (R41, R43). -/

namespace Sys2Proof.Machine

theorem find_pixelInsert_same (i : Nat) (v : Color) (l : List (Nat × Color)) :
    (pixelInsert i v l).find? (fun p => p.1 == i) = some (i, v) := by
  induction l with
  | nil => simp [pixelInsert]
  | cons p ps ih =>
    unfold pixelInsert
    split
    · simp
    · split
      · simp
      · rename_i h
        simp [ih, Ne.symm h]

theorem find_pixelInsert_other (i j : Nat) (v : Color) (l : List (Nat × Color)) (hij : j ≠ i) :
    (pixelInsert i v l).find? (fun p => p.1 == j) = l.find? (fun p => p.1 == j) := by
  induction l with
  | nil => simp [pixelInsert, Ne.symm hij]
  | cons p ps ih =>
    unfold pixelInsert
    split
    · simp [Ne.symm hij]
    · split
      · rename_i h
        subst h
        simp [Ne.symm hij]
      · simp [List.find?_cons, ih]

/-- R43: "afterwards `P[idx] = v`". -/
@[simp] theorem lookup_write_same (sf : Surface) (i : Nat) (v : Color) : (sf.write i v).lookup i = some v := by
  simp [Surface.lookup, find_pixelInsert_same]

/-- R43: "and every other pixel is unchanged". -/
theorem lookup_write_other (sf : Surface) (i j : Nat) (v : Color) (h : j ≠ i) :
    (sf.write i v).lookup j = sf.lookup j := by
  simp [Surface.lookup, find_pixelInsert_other _ _ _ _ h]

@[simp] theorem read_write_same (sf : Surface) (i : Nat) (v : Color) : (sf.write i v).read i = v := by
  simp [Surface.read]

theorem read_write_other (sf : Surface) (i j : Nat) (v : Color) (h : j ≠ i) : (sf.write i v).read j = sf.read j := by
  simp [Surface.read, lookup_write_other _ _ _ _ h]

@[simp] theorem size_write (sf : Surface) (i : Nat) (v : Color) : (sf.write i v).size = sf.size := rfl

theorem mem_pixelInsert (i : Nat) (v : Color) (l : List (Nat × Color)) (q : Nat × Color) (h : q ∈ pixelInsert i v l) :
    q = (i, v) ∨ q ∈ l := by
  induction l with
  | nil => simpa [pixelInsert] using h
  | cons p ps ih =>
    unfold pixelInsert at h
    split at h
    · simpa using h
    · split at h
      · rcases List.mem_cons.1 h with h | h
        · exact .inl h
        · exact .inr (List.mem_cons_of_mem _ h)
      · rcases List.mem_cons.1 h with h | h
        · exact .inr (h ▸ List.mem_cons_self)
        · exact (ih h).imp id (List.mem_cons_of_mem _)

theorem pixelInsert_sorted (i : Nat) (v : Color) (l : List (Nat × Color)) (h : l.Pairwise fun a b => a.1 < b.1) :
    (pixelInsert i v l).Pairwise fun a b => a.1 < b.1 := by
  induction l with
  | nil => simp [pixelInsert]
  | cons p ps ih =>
    obtain ⟨hp, hps⟩ := List.pairwise_cons.1 h
    unfold pixelInsert
    split
    · rename_i hi
      refine List.pairwise_cons.2 ⟨fun q hq => ?_, h⟩
      rcases List.mem_cons.1 hq with rfl | hq
      · exact hi
      · exact lt_trans hi (hp q hq)
    · split
      · rename_i hi
        exact List.pairwise_cons.2 ⟨fun q hq => hi ▸ hp q hq, hps⟩
      · rename_i h1 h2
        refine List.pairwise_cons.2 ⟨fun q hq => ?_, ih hps⟩
        rcases mem_pixelInsert _ _ _ _ hq with rfl | hq
        · exact lt_of_le_of_ne (Nat.le_of_not_lt h1) (Ne.symm h2)
        · exact hp q hq

/-- The one memory write keeps the canonical form. -/
theorem write_wf (sf : Surface) (i : Nat) (v : Color) (h : sf.wf = true) : (sf.write i v).wf = true := by
  simp only [Surface.wf, decide_eq_true_eq] at h ⊢
  exact pixelInsert_sorted i v _ h

/-- The bounds of one pixel (R41), as inequalities. -/
theorem onSurface_iff (w h : Word) (x y : Int) :
    onSurface w h x y = true ↔ 0 ≤ x ∧ x < (w.toNat : Int) ∧ 0 ≤ y ∧ y < (h.toNat : Int) := by
  unfold onSurface dim
  rw [Bool.and_eq_true, Bool.and_eq_true, Bool.and_eq_true, decide_eq_true_iff, decide_eq_true_iff, decide_eq_true_iff,
    decide_eq_true_iff, and_assoc, and_assoc]

/-- The bounds of two corners (R82, R126), as inequalities. -/
theorem cornersOnSurface_iff (w h : Word) (x1 y1 x2 y2 : Int) :
    cornersOnSurface w h x1 y1 x2 y2 = true ↔
      (0 ≤ x1 ∧ x1 < (w.toNat : Int) ∧ 0 ≤ y1 ∧ y1 < (h.toNat : Int)) ∧
      (0 ≤ x2 ∧ x2 < (w.toNat : Int) ∧ 0 ≤ y2 ∧ y2 < (h.toNat : Int)) := by
  rw [cornersOnSurface, Bool.and_eq_true, onSurface_iff, onSurface_iff]

/-- The bounds of a box around a centre (R98, R114), as inequalities. -/
theorem extentOnSurface_iff (w h : Word) (cx cy ex ey : Int) :
    extentOnSurface w h cx cy ex ey = true ↔
      0 ≤ cx - ex ∧ cx + ex < (w.toNat : Int) ∧ 0 ≤ cy - ey ∧ cy + ey < (h.toNat : Int) := by
  unfold extentOnSurface dim
  rw [Bool.and_eq_true, Bool.and_eq_true, Bool.and_eq_true, decide_eq_true_iff, decide_eq_true_iff, decide_eq_true_iff,
    decide_eq_true_iff, and_assoc, and_assoc, ge_iff_le, ge_iff_le]

/-- The port carries an index below 2^48 as it is (R42). -/
theorem pixelIndex_toNat (lw : Word) (p : Pixel) (h0 : 0 ≤ p.x + p.y * dim lw) (h : p.x + p.y * dim lw < 2 ^ 48) :
    (pixelIndex lw p).toNat = (p.x + p.y * dim lw).toNat := by
  simp only [pixelIndex, BitVec.toNat_ofInt]
  omega

/-- The index that the port carries is never above the index computed. -/
theorem pixelIndex_toNat_le (lw : Word) (p : Pixel) (h0 : 0 ≤ p.x + p.y * dim lw) :
    (pixelIndex lw p).toNat ≤ (p.x + p.y * dim lw).toNat := by
  simp only [pixelIndex, BitVec.toNat_ofInt]
  omega

/-- The store after reset has it. -/
theorem reset_surface_wf : State.reset.surface.wf = true := by decide

end Sys2Proof.Machine
end

