-- ==== Sys2Proof/Laws/Wait.lean ====
section
/-! SUPPORT. What a poll and the two `WAIT` loops can do (R66): the last host action of a `WAIT` is the read whose `BUSY` it returns. -/

namespace Sys2Proof.Machine

/-- The `BUSY` flag of a unit. -/
def HostUnit.busy (u : HostUnit) (s : State) : Bool :=
  match u with
  | .ras => s.ras.busy
  | .rdv => s.rdv.busy

/-- `BUSY` is bit 0 of `STATUS` (R12, R27). -/
@[simp] theorem statusWord_busy (busy done err ovr : Bool) : (statusWord busy done err ovr).getLsbD 0 = busy := by
  cases busy <;> cases done <;> cases err <;> cases ovr <;> decide

theorem hostRead_status_busy (u : HostUnit) (s : State) : (hostRead u (off 0x00) s).getLsbD 0 = u.busy s := by
  cases u
  · exact statusWord_busy ..
  · exact statusWord_busy ..

/-- A poll is one `HostRead` of `STATUS`; it returns the unit's `BUSY` and changes nothing but the value read. -/
theorem pollBusy_eq (u : HostUnit) (s : State) :
    pollBusy u s = .next ({ s with readData := hostRead u (off 0x00) s }, u.busy s) := by
  rw [← hostRead_status_busy]
  rfl

/-- `WAIT RAS` ends with a read of `STATUS` that returned the `BUSY` it reports. -/
theorem waitRas_last {n : Nat} {s t : State} {b : Bool} (h : waitRas n s = .next (t, b)) :
    t.ras.busy = b ∧ t.readData.getLsbD 0 = b := by
  induction n generalizing s with
  | zero =>
    simp only [waitRas, pollBusy_eq, Host.Outcome.next.injEq, Prod.mk.injEq] at h
    obtain ⟨rfl, rfl⟩ := h
    exact ⟨rfl, hostRead_status_busy ..⟩
  | succ n ih =>
    simp only [waitRas, pollBusy_eq] at h
    split at h
    · split at h
      · exact ih h
      · cases h
      · cases h
    · simp only [Host.Outcome.next.injEq, Prod.mk.injEq] at h
      obtain ⟨rfl, rfl⟩ := h
      exact ⟨rfl, hostRead_status_busy ..⟩

/-- `WAIT RDV` ends with a read of `STATUS` that returned the `BUSY` it reports; `BUSY` is still 1 only when no answer is left. -/
theorem waitRdv_last {answers : List BusAnswer} {s : State} {w : RdvWait} (h : waitRdv answers s = .next w) :
    w.state.rdv.busy = w.busy ∧ w.state.readData.getLsbD 0 = w.busy ∧ (w.busy = true → w.answers = []) := by
  induction answers generalizing s with
  | nil =>
    simp only [waitRdv, pollBusy_eq, Host.Outcome.next.injEq] at h
    subst h
    exact ⟨rfl, hostRead_status_busy .., fun _ => rfl⟩
  | cons a rest ih =>
    simp only [waitRdv, pollBusy_eq] at h
    split at h
    · split at h
      · exact ih h
      · cases h
      · cases h
    · rename_i hp
      simp only [Host.Outcome.next.injEq, Prod.mk.injEq] at hp h
      obtain ⟨rfl, hb⟩ := hp
      subst h
      exact ⟨hb, (hostRead_status_busy ..).trans hb, nofun⟩
    · cases h
    · cases h

end Sys2Proof.Machine
end

