-- ==== Sys2Proof/Laws/Walks.lean ====
section
/-! SUPPORT. The fuel of the two walks that R92 and R107 write as `while` loops is enough: a loop is left by its own test, and more
fuel changes nothing (notes/assumptions/20.md). -/

namespace Sys2Proof.Machine

/-- Region 1 of R107 is left by its own test. -/
theorem region1_exits (a2 b2 : Int) (ha : 0 ≤ a2) (hb : 1 ≤ b2) (n : Nat) (x y : Int) (hx : 0 ≤ x)
    (hn : a2 * y ≤ n + x) : ¬ b2 * (region1 a2 b2 n x y).2.x < a2 * (region1 a2 b2 n x y).2.y := by
  induction n generalizing x y with
  | zero => simp only [region1]; push_cast at hn; nlinarith
  | succ n ih =>
    unfold region1
    split
    · refine ih (x + 1) _ (by omega) ?_
      push_cast at hn
      split <;> nlinarith
    · assumption

/-- More fuel than region 1 needs changes nothing. -/
theorem region1_fuel (a2 b2 : Int) (ha : 0 ≤ a2) (hb : 1 ≤ b2) (n m : Nat) (x y : Int) (hx : 0 ≤ x)
    (hn : a2 * y ≤ n + x) (hm : a2 * y ≤ m + x) : region1 a2 b2 n x y = region1 a2 b2 m x y := by
  induction n generalizing m x y with
  | zero =>
    cases m with
    | zero => rfl
    | succ m =>
      unfold region1
      rw [if_neg]
      push_cast at hn
      nlinarith
  | succ n ih =>
    cases m with
    | zero =>
      unfold region1
      rw [if_neg]
      push_cast at hm
      nlinarith
    | succ m =>
      unfold region1
      split
      · have e := ih m (x + 1) (if ellipseF1 a2 b2 x y ≥ 0 then y - 1 else y) (by omega)
          (by push_cast at hn; split <;> nlinarith) (by push_cast at hm; split <;> nlinarith)
        simp only [e]
      · rfl

/-- The fuel of `quadWalk` is such. -/
theorem region1Fuel_enough (rx ry : Int) (hy : 0 ≤ ry) : rx * rx * ry ≤ (region1Fuel rx ry : Int) + 0 := by
  have : 0 ≤ rx * rx * ry := mul_nonneg (mul_self_nonneg rx) hy
  simp only [region1Fuel]
  push_cast
  omega

/-- More fuel than the octant walk needs changes nothing (R92). -/
theorem octWalk_fuel (n m : Nat) (x y d : Int) (hn : y - x < n) (hm : y - x < m) : octWalk n x y d = octWalk m x y d := by
  induction n generalizing m x y d with
  | zero =>
    cases m with
    | zero => rfl
    | succ m => unfold octWalk; rw [if_neg (by push_cast at hn; omega)]
  | succ n ih =>
    cases m with
    | zero => unfold octWalk; rw [if_neg (by push_cast at hm; omega)]
    | succ m =>
      unfold octWalk
      push_cast at hn hm
      rw [ih m (x + 1) y (d + 2 * x + 3) (by omega) (by omega), ih m (x + 1) (y - 1) (d + 2 * (x - y) + 5) (by omega) (by omega)]

end Sys2Proof.Machine
end

