-- ==== Sys2Proof/Tests/Slice0.lean ====
section
/-! SUPPORT. Tests: ill-formed terms refused, words written out from the encoding tables, one or two vectors of 95_test_vectors for each
instruction, and a witness for the hypotheses of every statement. -/

namespace Sys2Proof.Tests

open Sys2Proof.Machine Sys2Proof.Claims

/-! ### Well-formedness (R62: `1 <= count <= 32`) -/

theorem test_rdblock_count_0_refused : (Instr.rdblock 0x0F 0).wellFormed = false := by decide
theorem test_rdblock_count_33_refused : (Instr.rdblock 0x0F 33).wellFormed = false := by decide
theorem test_rdblock_count_1_and_32 :
    (Instr.rdblock 0x0F 1).wellFormed = true ∧ (Instr.rdblock 0x0F 32).wellFormed = true := by decide

/-! ### Words written out from R56, R59, R61, R62 -/

theorem test_decode_line :
    decodeRas 0x00020005_00000000_FFFF0001#96 = .ok (.line 0 0 5 2 0xFFFF) := by decide
theorem test_decode_circle :
    decodeRas 0x7FFF0002_00050006_FFFF0002#96 = .ok (.circle 6 5 2 0x7FFF 0xFFFF) := by decide
theorem test_decode_circleF :
    decodeRas 0x00000002_00050006_CB260102#96 = .ok (.circleF 6 5 2 0 0xCB26) := by decide
theorem test_decode_ellipse :
    decodeRas 0x00040006_00050008_FFFF0003#96 = .ok (.ellipse 8 5 6 4 0xFFFF) := by decide
theorem test_decode_ellipseF :
    decodeRas 0x00030005_00050008_F8000103#96 = .ok (.ellipseF 8 5 5 3 0xF800) := by decide
theorem test_decode_rect :
    decodeRas 0x00000000_000B000F_001F0004#96 = .ok (.rect 15 11 0 0 0x001F) := by decide
theorem test_decode_rectF :
    decodeRas 0x00070006_00050004_FFFF0104#96 = .ok (.rectF 4 5 6 7 0xFFFF) := by decide
theorem test_decode_pack565 :
    decodeRas 0x00000000_00563412_00000005#96 = .ok (.pack565 0x12 0x34 0x56 0 0) := by decide
theorem test_decode_rdbyte : decodeRdv 0x00AA0710#32 = .ok (.rdbyte 0x07 0xAA) := by decide
theorem test_decode_wrbyte : decodeRdv 0x00FF0111#32 = .ok (.wrbyte 0x01 0xFF) := by decide
theorem test_decode_rdpair : decodeRdv 0x00001612#32 = .ok (.rdpair 0x16 0) := by decide
theorem test_decode_rdblock : decodeRdv 0x00080F13#32 = .ok (.rdblock 0x0F 8) := by decide

/-- V8, V11: the words that are not legal. -/
theorem test_decode_rejects :
    decodeRas 0x00010101#96 = .error .filledFlag ∧ decodeRas 0x00000105#96 = .error .filledFlag ∧
    decodeRas 0x00040004_0000FFFF_00010202#96 = .error .reservedBits ∧ decodeRas 0x00018001#96 = .error .reservedBits ∧
    decodeRas 0#96 = .error .unknownOpcode ∧ decodeRas 6#96 = .error .unknownOpcode ∧
    decodeRdv 0x00000014#32 = .error .unknownOpcode ∧ decodeRdv 0x01000010#32 = .error .reservedBits ∧
    decodeRdv 0x00000F13#32 = .error .blockCount ∧ decodeRdv 0x00210F13#32 = .error .blockCount := by decide

/-- The table's numbering: a 96-bit and a 32-bit row. -/
theorem test_table_word :
    decodeTableWord 96 0x00020005_00000000_FFFF0001 = some (.line 0 0 5 2 0xFFFF) ∧
    decodeTableWord 32 0x00080F13 = some (.rdblock 0x0F 8) := by decide

/-! ### Small states -/

/-- The block just reset, with a Surface of 8 by 8 pixels that the host has set (P1: `SETSURF 8, 8`). -/
def screen : State := { State.reset with
  ras := { Ras.reset with surfW := 8, surfH := 8 }, surface := { width := 8, height := 8, pixels := [] } }

/-- The accept step of an instruction on the 8 by 8 Surface, and what the test looks at after it. -/
def after {α : Type} (i : Instr) (s : State) (look : State → α) : Option α :=
  match exec i s with
  | .next t => some (look t)
  | _ => none

/-- `STATUS`, `ERRCODE` of unit RAS as the host reads them. -/
def rasStatus (t : State) : Word × Word := (hostRead .ras (off 0x00) t, hostRead .ras (off 0x04) t)

/-- `STATUS`, `ERRCODE`, `XFER` of unit RDV as the host reads them. -/
def rdvStatus (t : State) : Word × Word × Word :=
  (hostRead .rdv (off 0x00) t, hostRead .rdv (off 0x04) t, hostRead .rdv (off 0x18) t)

/-- A list of coordinates as pixels. -/
def pixels (l : List (Int × Int)) : List Pixel := l.map fun p => { x := p.1, y := p.2 }

/-- A state in which `LINE 0, 0, 3, 0, RED` is in progress with one pixel written. -/
def drawing : State := { screen with
  ras := { screen.ras with
    busy := true, lcmd := 0x00000003_00000000_F8000001#96, lw := 8, lh := 8
    seq := pixels [(0, 0), (1, 0), (2, 0), (3, 0)], k := 1, pixcnt := 1 }
  surface := { width := 8, height := 8, pixels := [(0, 0xF800)] } }

/-- The same with every pixel written. -/
def drawn : State := { drawing with ras := { drawing.ras with k := 4, pixcnt := 4 } }

/-- Unit RAS with a fault recorded. -/
def faultedRas : State := { screen with ras := { screen.ras with err := true, errcode := .outOfBounds, errinfo := 0 } }

/-- A state in which the RDV command `v` is in the phase `ph` and `q` is its outstanding request. -/
def transferring (v : Word) (ph : Phase) (q : BusRequest) : State := { State.reset with
  rdv := { Rdv.reset with busy := true, lrc := v, ph := some ph }, bus := { trace := [q] } }

/-! ### One or two vectors for each instruction (95_test_vectors) -/

/-- V2, `LINE 2, 7, 5, 0`: steep, ends exchanged. -/
theorem test_line_steep : after (.line 2 7 5 0 0xFFFF) screen (fun t => t.ras.seq) =
    some (pixels [(5, 0), (5, 1), (4, 2), (4, 3), (3, 4), (3, 5), (2, 6), (2, 7)]) := by decide
/-- V2: the tie at `delta = 0`, and negative coordinates fault. -/
theorem test_line_tie_and_negative :
    seqLine 0 1 2 0 = pixels [(0, 1), (1, 1), (2, 0)] ∧
    seqLine (-3) (-1) 2 1 = pixels [(-3, -1), (-2, -1), (-1, 0), (0, 0), (1, 1), (2, 1)] ∧
    after (.line 0xFFFD 0xFFFF 2 1 0xFFFF) screen rasStatus = some (0x4, 3) := by decide
/-- V3, `CIRCLE 5, 5, 2`, with the ignored `D` = 0x7FFF. -/
theorem test_circle_2 : after (.circle 5 5 2 0x7FFF 0xFFFF) screen (fun t => t.ras.seq) =
    some (pixels [(5, 7), (5, 3), (7, 5), (3, 5), (6, 7), (4, 7), (6, 3), (4, 3), (7, 6), (3, 6), (7, 4), (3, 4)]) := by decide
/-- P3: a negative radius faults before the bounds do. -/
theorem test_circle_negative : after (.circle 4 4 0xFFFF 0 0xF800) screen rasStatus = some (0x4, 2) ∧
    after (.circle 1 1 2 0 0xF800) screen rasStatus = some (0x4, 3) := by decide
/-- V4, `CIRCLE.F 5, 5, 1`. -/
theorem test_disc_1 : after (.circleF 5 5 1 0 0xFFFF) screen (fun t => t.ras.seq) =
    some (pixels [(5, 4), (4, 5), (5, 5), (6, 5), (5, 6)]) := by decide
/-- V4: the length for `r = 4`. -/
theorem test_disc_4_length : (seqDisc 0 0 4).length = 61 := by decide
/-- V5, `ELLIPSE 5, 5, 1, 3`. -/
theorem test_ellipse_1_3 : seqEllipse 5 5 1 3 =
    pixels [(5, 8), (5, 2), (6, 7), (4, 7), (6, 3), (4, 3), (6, 6), (4, 6), (6, 4), (4, 4), (6, 5), (4, 5)] := by decide
/-- V5: the tip completion of `ELLIPSE 12, 3, 10, 1`, and a flat ellipse. -/
theorem test_ellipse_tip_and_flat : (seqEllipse 12 3 10 1).drop 34 = pixels [(21, 3), (3, 3), (22, 3), (2, 3)] ∧
    after (.ellipse 4 4 3 0 0xFFFF) screen (fun t => t.ras.seq) = some (pixels [(4, 4)]) := by decide
/-- P5: `ELLIPSE.F 8, 5, 5, 3` writes 61 pixels. -/
theorem test_ellipseF_5_3_length : (seqEllipseFilled 8 5 5 3).length = 61 := by decide
/-- S6: `ELLIPSE.F 4, 4, 0, 3`; P5: `cx + rx = SURF_W` faults. -/
theorem test_ellipseF_flat : after (.ellipseF 4 4 0 3 0xFFFF) screen (fun t => t.ras.seq) = some (pixels [(4, 4)]) ∧
    after (.ellipseF 4 4 4 3 0xFFFF) screen rasStatus = some (0x4, 3) := by decide
/-- P3: `RECT 1, 1, 4, 3` is accepted with ten pixels. -/
theorem test_rect_outline : after (.rect 1 1 4 3 0x001F) screen (fun t => (t.ras.seq, rasStatus t)) =
    some (pixels [(1, 1), (2, 1), (3, 1), (4, 1), (1, 3), (2, 3), (3, 3), (4, 3), (1, 2), (4, 2)], (0x1, 0)) := by decide
/-- R123: rows top to bottom, each left to right, whichever corner is given first. -/
theorem test_rectF_rows : after (.rectF 2 1 1 0 0xFFFF) screen (fun t => t.ras.seq) =
    some (pixels [(1, 0), (2, 0), (1, 1), (2, 1)]) := by decide
/-- V1: 200, 100, 50, `DONE` in the accept step. -/
theorem test_pack565 : after (.pack565 200 100 50 0 0) screen (fun t => (hostRead .ras (off 0x24) t, rasStatus t)) =
    some (0xCB26, (0x2, 0)) := by decide
/-- V1: all low bits are discarded. -/
theorem test_pack565_truncates : pack565 7 3 7 = 0 ∧ pack565 8 4 8 = 0x0821 := by decide
/-- V10, `RDBYTE 0x07`: the answer to the read. -/
theorem test_rdbyte_answer : after (.rdbyte 0x07 0xAA) screen (fun t => t.bus.trace) = some [.write [0x87]] ∧
    (match step { transferring 0x00AA0710 .r1 (.read 1) with script := [.busAnswer 0 (.bytes [0xFF])] } with
      | .next t => some (hostRead .rdv (off 0x14) t, rdvStatus t)
      | _ => none) = some (0x000000FF, 0x2, 0, 0) := by decide
/-- V10, V11, `WRBYTE 0x00, 0x03`: full and short. -/
theorem test_wrbyte_answer :
    (match step { transferring 0x00030011 .w1 (.write [0x80, 0x03]) with script := [.busAnswer 0 (.count 2)] } with
      | .next t => some (rdvStatus t)
      | _ => none) = some (0x2, 0, 0) ∧
    (match step { transferring 0x00030011 .w1 (.write [0x80, 0x03]) with script := [.busAnswer 0 (.count 1)] } with
      | .next t => some (rdvStatus t)
      | _ => none) = some (0x4, 4, 0x00000102) := by decide
/-- V10, `RDPAIR 0xFF`: the second address wraps to 0x00. -/
theorem test_rdpair_wraps :
    (match step { transferring 0x0000FF12 .r1 (.read 1) with script := [.busAnswer 0 (.bytes [0x01])] } with
      | .next t => some t.bus.trace
      | _ => none) = some [.read 1, .write [0x80]] := by decide
/-- V11, `RDPAIR 0x10`: the second half's write is short. -/
theorem test_rdpair_short :
    (match step { transferring 0x00001012 .w2 (.write [0x91]) with script := [.busAnswer 0 (.count 0)] } with
      | .next t => some (rdvStatus t)
      | _ => none) = some (0x4, 4, 0x00020001) := by decide
/-- V10, `RDBLOCK 0x0F, 8`: the buffer registers. -/
theorem test_rdblock_buffer :
    (match step { transferring 0x00080F13 .r1 (.read 8) with
        script := [.busAnswer 0 (.bytes [0x11, 0x22, 0x33, 0x44, 0x55, 0x66, 0x77, 0x88])] } with
      | .next t => some (hostRead .rdv (off 0x20) t, hostRead .rdv (off 0x24) t, hostRead .rdv (off 0x28) t)
      | _ => none) = some (0x44332211, 0x88776655, 0) := by decide
/-- V11, `RDBLOCK 0x0F, 8`: five bytes come. -/
theorem test_rdblock_short :
    (match step { transferring 0x00080F13 .r1 (.read 8) with
        script := [.busAnswer 0 (.bytes [0x11, 0x22, 0x33, 0x44, 0x55])] } with
      | .next t => some (rdvStatus t)
      | _ => none) = some (0x4, 4, 0x00010508) := by decide

/-- R66: `WAIT RDV` polls once more after the answer that ends the command, and reads `STATUS` = 0x2. -/
theorem test_wait_polls_after_the_last_answer :
    (match waitRdv [.count 2] (transferring 0x00030011 .w1 (.write [0x80, 0x03])) with
      | .next w => some (w.busy, w.state.readData)
      | _ => none) = some (false, 0x2) ∧
    (match waitRas 4 drawing with
      | .next (t, busy) => some (busy, t.readData)
      | _ => none) = some (false, 0x2) := by decide

/-- A word of the table is the first instruction after reset. -/
theorem test_first_instruction :
    (match step (State.reset.withFetchWord 96 0x00000000_003264C8_00000005) with
      | .next t => some (t.ras.result, t.ras.done)
      | _ => none) = some (0xCB26, true) := by decide

/-! ### Witnesses: states and operands that meet the hypotheses of each statement together -/

/-- The host's write of `v` is the next action. -/
def writing (u : HostUnit) (o : Offset) (v : Word) (s : State) : State := { s with script := [.hostWrite u o v] }

/-- The action `e` is the next one. -/
def doing (e : Event) (s : State) : State := { s with script := [e] }

theorem test_witness_DecodeInvertsEncode : (Instr.line 0x7FFF 0x8000 0xFFFF 0 0xFFFF).wellFormed = true ∧
    (Instr.rdblock 0xFF 1).wellFormed = true ∧ (Instr.rdblock 0xFF 32).wellFormed = true := by decide

theorem test_witness_EncodeInvertsDecode :
    decode (.ras 0xDEADBEEF_FF0000FF_ABCD0005#96) = .ok (.pack565 0xFF 0 0 0xDEADBEEFFF 0xABCD) ∧
    decode (.rdv 0x00AA0710#32) = .ok (.rdbyte 0x07 0xAA) := by decide

theorem test_witness_RasWordLegality :
    (0x00020005_00000000_FFFF0001#96).extractLsb' 0 16 = (0x00000000_00000000_00000001#96).extractLsb' 0 16 ∧
    ∃ (s : State) (v : Word) (rest : List Event), rasIdle s ∧ s.script = .hostWrite .ras 8#4 v :: rest ∧
      ∀ i, decodeRas (s.ras.arg1 ++ s.ras.arg0 ++ v) ≠ .ok i := by
  refine ⟨by decide, writing .ras 8#4 0x00010101 screen, 0x00010101, [], by decide, rfl, fun i => ?_⟩
  have h : decodeRas ((writing .ras 8#4 0x00010101 screen).ras.arg1 ++ (writing .ras 8#4 0x00010101 screen).ras.arg0 ++
    0x00010101#32) = .error .filledFlag := by decide
  exact fun hi => nomatch h.symm.trans hi

theorem test_witness_RdvWordLegality :
    (0x00AA0710#32 &&& 0xFF0000FF = 0x00000010 ∧ 0x00FF0111#32 &&& 0xFF0000FF = 0x00000011 ∧
      0x00001612#32 &&& 0xFF0000FF = 0x00000012 ∧ 0x00200F13#32 &&& 0xFF0000FF = 0x00000013 ∧
      1 ≤ ((0x00200F13#32).extractLsb' 16 8).toNat ∧ ((0x00200F13#32).extractLsb' 16 8).toNat ≤ 32) ∧
    ∃ (s : State) (v : Word) (rest : List Event), rdvIdle s ∧ s.script = .hostWrite .rdv 4#4 v :: rest ∧
      ∀ i, decodeRdv v ≠ .ok i := by
  refine ⟨by decide, writing .rdv 4#4 0x00210F13 screen, 0x00210F13, [], by decide, rfl, fun i => ?_⟩
  have h : decodeRdv 0x00210F13 = .error .blockCount := by decide
  rw [h]; exact nofun

theorem test_witness_StepRunsTheDecodedCommand :
    (writing .ras 8#4 0xF8000001 screen).script = [.hostWrite .ras 8#4 0xF8000001] ∧
    decodeRas (screen.ras.arg1 ++ screen.ras.arg0 ++ 0xF8000001#32) = .ok (.line 0 0 0 0 0xF800) ∧
    (writing .rdv 4#4 0x00001012 screen).script = [.hostWrite .rdv 4#4 0x00001012] ∧
    decodeRdv 0x00001012 = .ok (.rdpair 0x10 0) := by decide

theorem test_witness_IssuedLineRunsItsInstruction :
    encode (.line 0 0 7 3 0xF800) = .ras 0x00030007_00000000_F8000001#96 ∧
    ({ screen with script := [.hostWrite .ras 6#4 0, .hostWrite .ras 7#4 0x00030007, .hostWrite .ras 8#4 0xF8000001] }
      : State).script = [.hostWrite .ras 6#4 ((0x00030007_00000000_F8000001#96).extractLsb' 32 32),
        .hostWrite .ras 7#4 ((0x00030007_00000000_F8000001#96).extractLsb' 64 32),
        .hostWrite .ras 8#4 ((0x00030007_00000000_F8000001#96).extractLsb' 0 32)] ∧
    (Instr.rdblock 0x0F 8).wellFormed = true ∧ encode (.rdblock 0x0F 8) = .rdv 0x00080F13 ∧
    (writing .rdv 4#4 0x00080F13 screen).script = [.hostWrite .rdv 4#4 0x00080F13] := by decide

theorem test_witness_RasCommandDroppedWhileBusyOrFaulted :
    drawing.ras.busy = true ∧ faultedRas.ras.err = true ∧
    (writing .ras 8#4 0xFFFF0104 drawing).script = [.hostWrite .ras 8#4 0xFFFF0104] ∧
    (writing .ras 8#4 0 faultedRas).script = [.hostWrite .ras 8#4 0] ∧
    (Instr.pack565 1 2 3 0 0).isRas = true := by decide

theorem test_witness_RdvCommandDroppedWhileBusyOrFaulted :
    (transferring 0x00000010 .w1 (.write [0x80])).rdv.busy = true ∧
    (writing .rdv 4#4 0x00000010 (transferring 0x00000010 .w1 (.write [0x80]))).script =
      [.hostWrite .rdv 4#4 0x00000010] ∧
    (Instr.rdblock 0 0).isRas = false := by decide

theorem test_witness_LineAndRectanglesAreAccepted : rasIdle screen ∧
    onHostSurface screen (0 : Field16).toInt (0 : Field16).toInt ∧ onHostSurface screen (7 : Field16).toInt (7 : Field16).toInt ∧
    encode (.line 0 0 7 7 1) = .ras 0x00070007_00000000_00010001#96 ∧
    encode (.rect 0 0 7 7 1) = .ras 0x00070007_00000000_00010004#96 ∧
    encode (.rectF 0 0 7 7 1) = .ras 0x00070007_00000000_00010104#96 := by decide

theorem test_witness_CirclesAreAccepted : rasIdle screen ∧ 0 ≤ (3 : Field16).toInt ∧
    extentOnHostSurface screen (4 : Field16).toInt (3 : Field16).toInt (3 : Field16).toInt (3 : Field16).toInt ∧
    extentOnHostSurface screen (7 : Field16).toInt (0 : Field16).toInt (0 : Field16).toInt (0 : Field16).toInt ∧
    encode (.circle 4 3 3 0xFFFF 1) = .ras 0xFFFF0003_00030004_00010002#96 ∧
    encode (.circleF 7 0 0 0 1) = .ras 0x00000000_00000007_00010102#96 := by decide

/-- R98: "`cx + r` can reach 65534; `LW`, `LH` are unsigned 32-bit": the dimensions alone bound a circle. -/
theorem test_circle_past_column_32767 :
    circleFault { screen.ras with lw := 32769, lh := 40000 } 32767 5 1 = none ∧
    circleFault { screen.ras with lw := 32768, lh := 40000 } 32767 5 1 = some .outOfBounds := by decide

theorem test_witness_EllipsesAreAccepted : rasIdle screen ∧ 0 ≤ (3 : Field16).toInt ∧ 0 ≤ (2 : Field16).toInt ∧
    extentOnHostSurface screen (4 : Field16).toInt (2 : Field16).toInt (3 : Field16).toInt (2 : Field16).toInt ∧
    extentOnHostSurface screen (7 : Field16).toInt (7 : Field16).toInt 0 0 ∧
    encode (.ellipse 4 2 3 2 1) = .ras 0x00020003_00020004_00010003#96 ∧
    encode (.ellipseF 7 7 0x7FFF 0 1) = .ras 0x00007FFF_00070007_00010103#96 := by decide

theorem test_witness_LineAndRectanglesOffTheSurfaceFault : rasIdle screen ∧
    ¬ (onHostSurface screen (0 : Field16).toInt (0 : Field16).toInt ∧ onHostSurface screen (8 : Field16).toInt (7 : Field16).toInt) ∧
    ¬ (onHostSurface screen (0xFFFF : Field16).toInt (0 : Field16).toInt ∧
        onHostSurface screen (7 : Field16).toInt (7 : Field16).toInt) ∧
    encode (.line 0 0 8 7 1) = .ras 0x00070008_00000000_00010001#96 ∧
    encode (.rect 0 0 8 7 1) = .ras 0x00070008_00000000_00010004#96 ∧
    encode (.rectF 0xFFFF 0 7 7 1) = .ras 0x00070007_0000FFFF_00010104#96 := by decide

theorem test_witness_RoundShapesFaultInOrder : rasIdle screen ∧
    encode (if true then .circleF 4 4 0xFFFF 0 1 else .circle 4 4 0xFFFF 0 1) = .ras 0x0000FFFF_00040004_00010102#96 ∧
    (0xFFFF : Field16).toInt < 0 ∧ 0 ≤ (4 : Field16).toInt ∧
    ¬ extentOnHostSurface screen (4 : Field16).toInt (4 : Field16).toInt (4 : Field16).toInt (4 : Field16).toInt ∧
    encode (if false then .ellipseF 8 0 0 3 1 else .ellipse 8 0 0 3 1) = .ras 0x00030000_00000008_00010003#96 ∧
    0 ≤ (0 : Field16).toInt ∧ ¬ extentOnHostSurface screen (8 : Field16).toInt (0 : Field16).toInt 0 0 := by decide

theorem test_witness_Pack565Completes : rasIdle screen ∧
    encode (.pack565 255 3 0 0xDEADBEEFFF 0xABCD) = .ras 0xDEADBEEF_FF0003FF_ABCD0005#96 := by decide

theorem test_witness_RdvCommandsAreAccepted : rdvIdle screen ∧
    encode (.rdbyte 0x07 0xAA) = .rdv 0x00AA0710 ∧ encode (.wrbyte 0x07 0xAA) = .rdv 0x00AA0711 ∧
    encode (.rdpair 0x07 0xAA) = .rdv 0x00AA0712 ∧ encode (.rdblock 0x07 32) = .rdv 0x00200713 ∧
    encode (.rdblock 0x07 1) = .rdv 0x00010713 ∧ 1 ≤ (32 : Byte).toNat ∧ (32 : Byte).toNat ≤ 32 ∧ 1 ≤ (1 : Byte).toNat := by
  decide

theorem test_witness_ReadByteTransaction : rdvIdle screen ∧ encode (.rdbyte 0xFF 0) = .rdv 0x0000FF10 := by decide

theorem test_witness_WriteByteTransaction : rdvIdle screen ∧ encode (.wrbyte 0x00 0x03) = .rdv 0x00030011 := by decide

theorem test_witness_ReadPairTransaction : rdvIdle screen ∧ encode (.rdpair 0xFF 0) = .rdv 0x0000FF12 := by decide

theorem test_witness_ReadBlockTransaction : rdvIdle screen ∧ 1 ≤ (32 : Byte).toNat ∧ (32 : Byte).toNat ≤ 32 ∧
    (List.replicate 32 (0xAB : Byte)).length = (32 : Byte).toNat ∧ encode (.rdblock 0 32) = .rdv 0x00200013 := by decide

/-- Both kinds of transfer, in both halves of `RDPAIR`. -/
theorem test_witness_ShortTransferIsBusError :
    (∃ s : State, s.rdv.busy = true ∧ decodeRdv s.rdv.lrc = .ok (.rdpair 0x10 0) ∧ s.rdv.ph = some .w2 ∧
      phaseFits (.rdpair 0x10 0) .w2 = true ∧ s.bus.trace.getLast? = some (outstandingRequest (.rdpair 0x10 0) .w2) ∧
      outstandingRequest (.rdpair 0x10 0) .w2 = .write [0x91] ∧ 0 < ([0x91] : List Byte).length ∧
      s.script = [.busAnswer (s.bus.trace.length - 1) (.count 0)]) ∧
    (∃ s : State, s.rdv.busy = true ∧ decodeRdv s.rdv.lrc = .ok (.rdblock 0x0F 8) ∧ s.rdv.ph = some .r1 ∧
      phaseFits (.rdblock 0x0F 8) .r1 = true ∧ s.bus.trace.getLast? = some (outstandingRequest (.rdblock 0x0F 8) .r1) ∧
      outstandingRequest (.rdblock 0x0F 8) .r1 = .read 8 ∧ ([1, 2, 3, 4, 5, 6, 7] : List Byte).length < 8 ∧
      s.script = [.busAnswer (s.bus.trace.length - 1) (.bytes [1, 2, 3, 4, 5, 6, 7])]) :=
  ⟨⟨doing (.busAnswer 0 (.count 0)) (transferring 0x00001012 .w2 (.write [0x91])), by decide⟩,
   ⟨doing (.busAnswer 0 (.bytes [1, 2, 3, 4, 5, 6, 7])) (transferring 0x00080F13 .r1 (.read 8)), by decide⟩⟩

theorem test_witness_LateAnswerIsDiscarded :
    ((doing (.busAnswer 0 (.bytes [])) screen).script = [.busAnswer 0 (.bytes [])] ∧ screen.rdv.busy = false) ∧
    ((doing (.busAnswer 1 (.count 9)) (transferring 0x00001012 .r1 (.read 1))).script = [.busAnswer 1 (.count 9)] ∧
      1 + 1 ≠ (transferring 0x00001012 .r1 (.read 1)).bus.trace.length) := by decide

theorem test_witness_RasControlWrite :
    (writing .ras 3#4 7 faultedRas).script = [.hostWrite .ras 3#4 7] := by decide

theorem test_witness_RdvControlWrite :
    (writing .rdv 3#4 8 screen).script = [.hostWrite .rdv 3#4 8] ∧ (8 : Word).getLsbD 3 = true ∧
    (writing .rdv 3#4 7 screen).script = [.hostWrite .rdv 3#4 7] ∧ (7 : Word).getLsbD 3 = false := by decide

theorem test_witness_HostReadsHaveNoSideEffect :
    (doing (.hostRead .ras 11#4) drawing).script = [.hostRead .ras 11#4] ∧ 11 ≤ (11#4).toNat ∧ 11 ≤ (15#4).toNat := by decide

theorem test_witness_PlainRegistersStoreAndOthersIgnoreWrites :
    (writing .ras 4#4 4 drawing).script = [.hostWrite .ras 4#4 4] ∧ (writing .ras 5#4 4 drawing).script = [.hostWrite .ras 5#4 4] ∧
    (writing .ras 6#4 4 drawing).script = [.hostWrite .ras 6#4 4] ∧ (writing .ras 7#4 4 drawing).script = [.hostWrite .ras 7#4 4] ∧
    (writing .ras 2#4 4 drawing).script = [.hostWrite .ras 2#4 4] ∧ (2#4).toNat < 3 ∧
    (writing .ras 9#4 4 drawing).script = [.hostWrite .ras 9#4 4] ∧ 8 < (9#4).toNat ∧
    (writing .rdv 2#4 4 drawing).script = [.hostWrite .rdv 2#4 4] ∧
    (writing .rdv 5#4 4 drawing).script = [.hostWrite .rdv 5#4 4] ∧ 4 < (5#4).toNat := by decide

theorem test_witness_ResetAtAnyMoment : (doing .reset drawing).script = [.reset] ∧ drawing.ras.busy = true := by decide

theorem test_witness_PixelStepWritesOnePixel : (doing .rasTurn drawing).script = [.rasTurn] ∧ drawing.ras.busy = true ∧
    drawing.ras.seq[drawing.ras.k]? = some { x := 1, y := 0 } ∧ (0 : Int) ≤ 1 ∧ (1 : Int) < (drawing.ras.lw.toNat : Int) ∧
    (0 : Int) < (drawing.ras.lh.toNat : Int) ∧ (1 : Int) + 0 * (drawing.ras.lw.toNat : Int) < 2 ^ 48 ∧
    ((1 : Int) + 0 * (drawing.ras.lw.toNat : Int)).toNat < drawing.surface.width.toNat * drawing.surface.height.toNat := by
  decide

theorem test_witness_FinishAndIdleTurns : (doing .rasTurn drawn).script = [.rasTurn] ∧ drawn.ras.busy = true ∧
    drawn.ras.k = drawn.ras.seq.length ∧ (doing .rasTurn screen).script = [.rasTurn] ∧ screen.ras.busy = false := by decide

/-- A provider of one pixel behind a host that has said 8 by 8. -/
def mismatched : State := { drawing with surface := { width := 1, height := 1, pixels := [] } }

theorem test_witness_UndefinedSurfaceAccessesStop :
    ((doing .rasTurn mismatched).script = [.rasTurn] ∧ mismatched.ras.busy = true ∧
      mismatched.ras.seq[mismatched.ras.k]? = some { x := 1, y := 0 } ∧ onSurface mismatched.ras.lw mismatched.ras.lh 1 0 = true ∧
      mismatched.surface.width.toNat * mismatched.surface.height.toNat ≤ (pixelIndex mismatched.ras.lw { x := 1, y := 0 }).toNat) ∧
    ((doing (.surfaceWrite 0 0) drawing).script = [.surfaceWrite 0 0] ∧ drawing.ras.busy = true) := by decide

theorem test_witness_DrawingCommandNetEffect : rasIdle screen ∧ screen.script = [] ∧
    encode (.line 0 0 7 7 1) = .ras 0x00070007_00000000_00010001#96 ∧
    drawable (.line 0 0 7 7 1) (seqLine 0 0 7 7) screen ∧ screen.ras.surfW = screen.surface.width ∧
    screen.ras.surfH.toNat ≤ screen.surface.height.toNat := by decide

theorem test_witness_StepsExtendTheDrawnPart : drawing.ras.busy = true ∧
    drawnOver { width := 8, height := 8, pixels := [] } drawing ∧ ∃ t, step drawing = .next t := by
  refine ⟨rfl, ⟨by decide, fun idx h => ?_⟩, _, rfl⟩
  have h0 : (0 : Nat) ≠ idx := h { x := 0, y := 0 } (by decide)
  cases idx with
  | zero => exact absurd rfl h0
  | succ n => rfl

theorem test_witness_CommandInProgressIsUndisturbed : drawing.ras.busy = true ∧
    (writing .ras 4#4 1 drawing).script = [.hostWrite .ras 4#4 1] ∧ (Event.hostWrite .ras 4#4 1) ≠ .reset ∧
    (Event.hostWrite .ras 4#4 1) ≠ .rasTurn ∧ ∃ t, step (writing .ras 4#4 1 drawing) = .next t :=
  ⟨rfl, rfl, by decide, by decide, _, rfl⟩

/-- Each clause; the other unit differs between the two states. -/
theorem test_witness_UnitsShareNoState :
    (rasSide .rasTurn = true ∧ drawing.ras = ({ drawing with rdv := { drawing.rdv with busy := true } } : State).ras ∧
      ∃ t, step (doing .rasTurn drawing) = .next t) ∧
    (rdvSide (.hostWrite .rdv 4#4 0x00001012) = true ∧ drawing.rdv = screen.rdv ∧ drawing.bus = screen.bus ∧
      ∃ t, step (writing .rdv 4#4 0x00001012 drawing) = .next t) ∧
    (∃ t, step (doing (.hostRead .ras 0#4) drawing) = .next t) ∧ ∃ t, step (doing .reset drawing) = .next t :=
  ⟨⟨rfl, rfl, _, rfl⟩, ⟨rfl, rfl, rfl, _, rfl⟩, ⟨_, rfl⟩, _, rfl⟩

theorem test_witness_RasCommandFrame : (Instr.rectF 0 0 7 7 1).isRas = true ∧ rasIdle screen ∧
    (∃ t, exec (.rectF 0 0 7 7 1) screen = .next t) ∧ drawSequence (.rectF 0 0 7 7 1) ≠ none ∧
    ∃ t, exec (.rectF 0 0 8 8 1) screen = .next t ∧ t.ras.errcode ≠ screen.ras.errcode :=
  ⟨rfl, ⟨rfl, rfl⟩, ⟨_, rfl⟩, nofun, _, rfl, by decide⟩

theorem test_witness_RdvCommandFrame : (Instr.rdpair 0x10 0).isRas = false ∧ rdvIdle screen ∧
    ∃ t, exec (.rdpair 0x10 0) screen = .next t := ⟨rfl, ⟨rfl, rfl⟩, _, rfl⟩

/-- Each result register changes in some step. -/
theorem test_witness_ResultRegistersHaveTheirWriters :
    (∃ t, step (writing .ras 8#4 5 { screen with ras := { screen.ras with arg0 := 0xFF } }) = .next t ∧
      t.ras.result ≠ screen.ras.result) ∧
    (∃ t, step (doing (.busAnswer 0 (.bytes [3])) (transferring 0x00000010 .r1 (.read 1))) = .next t ∧
      t.rdv.data ≠ (transferring 0x00000010 .r1 (.read 1)).rdv.data) ∧
    (∃ t, step (doing (.busAnswer 0 (.bytes [3])) (transferring 0x00010F13 .r1 (.read 1))) = .next t ∧
      t.rdv.buf ≠ (transferring 0x00010F13 .r1 (.read 1)).rdv.buf) :=
  ⟨⟨_, rfl, by decide⟩, ⟨_, rfl, by decide⟩, _, rfl, by decide⟩

/-- Consecutive pixels of a steep and of a flat line. -/
theorem test_witness_LineIsAConnectedPathBetweenItsEnds :
    (seqLine 2 7 5 0)[0]? = some { x := 5, y := 0 } ∧ (seqLine 2 7 5 0)[1]? = some { x := 5, y := 1 } ∧
    (seqLine 0 0 5 2)[4]? = some { x := 4, y := 2 } ∧ (seqLine 0 0 5 2)[5]? = some { x := 5, y := 2 } := by decide

theorem test_witness_LineClosedForm :
    ((2 - 0 : Int).natAbs ≤ (5 - 0 : Int).natAbs ∧ (0 : Int) < 5 ∧ 5 ≤ (5 - 0 : Int).natAbs) ∧
    ((2 - 0 : Int).natAbs < (5 - 0 : Int).natAbs ∧ 0 ≤ (5 - 0 : Int).natAbs) := by decide

theorem test_witness_DegenerateShapesAreOnePixel : ((0 : Int) = 0 ∨ (3 : Int) = 0) ∧ ((-3 : Int) = 0 ∨ (0 : Int) = 0) := by decide

/-- `RECT 15, 11, 0, 0` of P5, and a one-row rectangle. -/
theorem test_witness_RectangleSequenceProperties :
    ((0 : Int) = min 15 0 ∧ (15 : Int) = max 15 0 ∧ (0 : Int) = min 11 0 ∧ (11 : Int) = max 11 0 ∧
      16 = ((15 : Int) - 0 + 1).toNat ∧ 12 = ((11 : Int) - 0 + 1).toNat) ∧
    ((2 : Int) = min 2 4 ∧ (4 : Int) = max 2 4 ∧ (5 : Int) = min 5 5 ∧ (5 : Int) = max 5 5 ∧
      3 = ((4 : Int) - 2 + 1).toNat ∧ 1 = ((5 : Int) - 5 + 1).toNat ∧ (3 ≤ 2 ∨ 1 ≤ 2)) := by decide

/-- The examples of R92: `OCT(1)`, `OCT(3)`. -/
theorem test_witness_CircleStaysInItsRing : (1 : Int) ≤ 1 ∧ oct 1 = pixels [(0, 1)] ∧ { x := 0, y := 1 } ∈ seqCircle 0 0 1 ∧
    (oct 3)[1]? = some { x := 1, y := 3 } ∧ (oct 3)[2]? = some { x := 2, y := 2 } ∧
    (oct 3).getLast? = some { x := 2, y := 2 } := by decide

theorem test_witness_CircleSymmetries : (0 : Int) ≤ 2 ∧ { x := 2, y := 1 } ∈ seqCircle 0 0 2 := by decide

theorem test_witness_DiscFillsTheCircle : (0 : Int) ≤ 0 ∧ { x := 0, y := 0 } ∈ seqDisc 0 0 0 ∧
    { x := 1, y := 1 } ∈ seqDisc 0 0 2 := by decide

theorem test_witness_EllipseBoundingBoxIsExact : (1 : Int) ≤ 1 ∧ (1 : Int) ≤ 3 ∧ { x := 1, y := 2 } ∈ seqEllipse 0 0 1 3 ∧
    { x := 1, y := -2 } ∈ seqEllipseFilled 0 0 1 3 ∧
    (quad 10 1)[8]? = some { x := 8, y := 1 } ∧ (quad 10 1)[9]? = some { x := 9, y := 0 } ∧
    (quad 10 1)[10]? = some { x := 10, y := 0 } := by decide

theorem test_witness_WriteSequencesHoldNoPixelTwice : drawSequence (.circle 5 5 2 0 1) = some (seqCircle 5 5 2) ∧
    drawFault screen.ras (.circle 5 5 2 0 1) ≠ some .negRadius := by decide

/-- A command that passes the bounds check and one that does not. -/
theorem test_witness_BoundsCheckIsExact :
    drawSequence (.ellipseF 4 4 3 3 1) = some (seqEllipseFilled 4 4 3 3) ∧
    drawFault { screen.ras with lw := 8, lh := 8 } (.ellipseF 4 4 3 3 1) = none ∧
    drawSequence (.rect 0 0 8 7 1) = some (seqRect 0 0 8 7) ∧
    drawFault { screen.ras with lw := 8, lh := 8 } (.rect 0 0 8 7 1) = some .outOfBounds := by decide

/-! The invariants: a state in the middle of a command meets each, and its step answers. -/

theorem drawing_onSurface : drawing.ras.onSurfaceInv := fun _ => by decide

theorem test_witness_StepKeepsFlagsExclusive : drawing.flagsInv ∧ ∃ t, step drawing = .next t :=
  ⟨by unfold State.flagsInv flagsExclusive; decide, _, rfl⟩

theorem test_witness_StepKeepsFaultRecords :
    (∃ t, step (writing .ras 3#4 1 faultedRas) = .next t) ∧ (writing .ras 3#4 1 faultedRas).faultInv :=
  ⟨⟨_, rfl⟩, by unfold State.faultInv Ras.faultInv Rdv.faultInv; decide⟩

theorem test_witness_StepKeepsPixelsOnTheSurface :
    drawing.ras.seqInv ∧ drawing.ras.onSurfaceInv ∧ ∃ t, step drawing = .next t :=
  ⟨fun _ => ⟨.line 0 0 3 0 0xF800, by decide, by decide⟩, drawing_onSurface, _, rfl⟩

theorem test_witness_StepKeepsThePixelCount : drawing.ras.countInv ∧ ∃ t, step drawing = .next t :=
  ⟨fun _ => by decide, _, rfl⟩

/-- `RDBYTE 0x07` with its read outstanding. -/
def reading : State := doing (.busAnswer 0 (.bytes [3])) (transferring 0x00000710 .r1 (.read 1))

theorem reading_transfer : reading.transferInv :=
  ⟨nofun, fun _ => ⟨.rdbyte 0x07 0, .r1, by decide, rfl, rfl, rfl⟩⟩

theorem test_witness_StepKeepsTheTransferInFlight : reading.transferInv ∧ ∃ t, step reading = .next t :=
  ⟨reading_transfer, _, rfl⟩

theorem test_witness_StepKeepsThePixelStoreCanonical : drawing.surface.wf = true ∧ ∃ t, step drawing = .next t :=
  ⟨by decide, _, rfl⟩

/-- Both engines at work, and an answer of the provider to come. -/
def working : State := { drawing with rdv := reading.rdv, bus := reading.bus, script := reading.script }

theorem test_witness_NoStepStopsOfItself : working.ras.onSurfaceInv ∧ working.transferInv ∧
    (working.ras.busy = true → working.dimensionsHonest) ∧
    (∀ (idx : Nat) (v : Color) (rest : List Event), working.script ≠ .surfaceWrite idx v :: rest) ∧
    (∀ (n : Nat) (a : BusAnswer) (rest : List Event) (q : BusRequest), working.script = .busAnswer n a :: rest →
      working.bus.trace[n]? = some q → BusAnswer.fits q a = true) := by
  refine ⟨drawing_onSurface, reading_transfer, fun _ => ⟨rfl, by decide⟩, nofun, fun n a rest q h hq => ?_⟩
  cases h
  cases hq
  decide

theorem test_witness_SensorInitVerifiesTheEcho : rdvIdle screen ∧ (0x03 : Byte) = 0x03 ∧ (0x13 : Byte) ≠ 0x03 := by decide

theorem test_witness_BlockReadEqualsPairReads : rdvIdle screen ∧ rdvIdle drawing := by decide

/-- The last pixel of a line that ends at `(32767, 0)`, and a round shape. -/
theorem test_witness_PixelIndexFitsItsPort :
    (drawSequence (.line 32767 0 32767 0 1) = some (seqLine 32767 0 32767 0) ∧
      drawFault { screen.ras with lw := 40000, lh := 1 } (.line 32767 0 32767 0 1) = none ∧
      { x := 32767, y := 0 } ∈ seqLine 32767 0 32767 0) ∧
    (drawSequence (.circle 4 4 1 0 1) = some (seqCircle 4 4 1) ∧
      drawFault { screen.ras with lw := 8, lh := 8 } (.circle 4 4 1 0 1) = none ∧ { x := 5, y := 4 } ∈ seqCircle 4 4 1 ∧
      (8 : Word).toNat ≤ 32768) := by decide

end Sys2Proof.Tests
end

