-- ==== Sys2Proof/Proofs/CommandCases.lean ====
section
/-! All that the accept step of a command can do, for the eight RAS commands (R20, R24) and for the four RDV commands (R132, R30). -/

namespace Sys2Proof.Machine

/-- All that `exec` of a RAS command can do: take a fault of its own, begin to draw, give the packed color, or be dropped. -/
theorem exec_ras_cases {i : Instr} {s t : State} (hi : i.isRas = true) (h : exec i s = .next t) :
    (s.ras.busy = false ∧ s.ras.err = false ∧ ∃ c, encode i = .ras c ∧
      ((∃ f, drawFault (rasLatch c s.ras) i = some f ∧
          t = { s with ras := rasRaise f c.cmdValue (rasLatch c s.ras) }) ∨
        (∃ seq, drawFault (rasLatch c s.ras) i = none ∧ drawSequence i = some seq ∧
          t = { s with ras := rasBegin seq (rasLatch c s.ras) }) ∨
        (∃ r g b u col, i = .pack565 r g b u col ∧
          t = { s with ras := { rasLatch c s.ras with result := pack565 r g b, done := true } }))) ∨
    ((s.ras.busy = true ∨ s.ras.err = true) ∧ t = { s with ras := { s.ras with ovr := true } }) := by
  rcases isRas_cases hi with ⟨seq, c, hseq, hc⟩ | ⟨r, g, b, u, col, rfl⟩
  · rw [exec_drawing s hseq hc] at h
    refine (rasAccept_cases h).imp (fun ⟨hb, he, ht⟩ => ⟨hb, he, c, hc, ?_⟩) id
    cases hf : drawFault (rasLatch c s.ras) i with
    | some f => exact .inl ⟨f, rfl, by simpa [drawBody, hf] using ht⟩
    | none => exact .inr (.inl ⟨seq, rfl, hseq, by simpa [drawBody, hf] using ht⟩)
  · rw [exec_pack565] at h
    exact (rasAccept_cases h).imp
      (fun ⟨hb, he, ht⟩ => ⟨hb, he, _, rfl, .inr (.inr ⟨r, g, b, u, col, rfl, ht⟩)⟩) id

/-- The word of an RDV command. -/
theorem encode_of_not_isRas {i : Instr} (hi : i.isRas = false) : ∃ v, encode i = .rdv v := by
  cases i <;> simp_all [Instr.isRas, encode]

/-- An RDV command that is not well formed is an illegal command word: `RDBLOCK` with a count out of range (R62). -/
theorem exec_rdv_illegal {i : Instr} {v : Word} (s : State) (hw : i.wellFormed = false) (he : encode i = .rdv v) :
    exec i s = rdvIllegal v s := by
  cases i with
  | rdblock blockAddr count =>
    cases he
    exact if_neg (by simp [hw])
  | _ => simp [Instr.wellFormed] at hw

/-- All that `exec` of an RDV command can do: request its first transfer, take `IllegalCommand`, or be dropped. -/
theorem exec_rdv_cases {i : Instr} {s t : State} (hi : i.isRas = false) (h : exec i s = .next t) :
    (s.rdv.busy = false ∧ s.rdv.err = false ∧ ∃ v, encode i = .rdv v ∧
      ((i.wellFormed = true ∧ t = { s with
          rdv := { s.rdv with lrc := v, done := false, busy := true, ph := some .w1 }
          bus := { s.bus with trace := s.bus.trace ++ [.write (firstTransfer i)] } }) ∨
        (i.wellFormed = false ∧ t = { s with rdv := rdvRaise .illegalCmd v Xfer.zero (rdvLatch v s.rdv) }))) ∨
    ((s.rdv.busy = true ∨ s.rdv.err = true) ∧ t = { s with rdv := { s.rdv with ovr := true } }) := by
  obtain ⟨v, hv⟩ := encode_of_not_isRas hi
  cases hr : s.rdv.ready with
  | true =>
    obtain ⟨hb, he⟩ := (rdv_ready_iff _).1 hr
    refine .inl ⟨hb, he, v, hv, ?_⟩
    cases hw : i.wellFormed with
    | true =>
      rw [exec_rdv s hw hv, rdvIssue_ready _ _ _ hb he] at h
      cases h
      exact .inl ⟨rfl, rfl⟩
    | false =>
      rw [exec_rdv_illegal s hw hv, rdvIllegal_ready _ _ hb he] at h
      cases h
      exact .inr ⟨rfl, rfl⟩
  | false =>
    have hd := (rdv_not_ready_iff _).1 hr
    refine .inr ⟨hd, ?_⟩
    cases hw : i.wellFormed with
    | true =>
      rw [exec_rdv s hw hv, rdvIssue_dropped _ _ _ hd] at h
      cases h
      rfl
    | false =>
      rw [exec_rdv_illegal s hw hv, rdvIllegal_dropped _ _ hd] at h
      cases h
      rfl

end Sys2Proof.Machine
end

