-- ==== Sys2Proof/Proofs/Confined.lean ====
section
/-! R1 as an equation. An operation is confined to one side of the machine when it commutes with moving that side into other
surroundings: it then neither reads nor writes the surroundings. The two sides are unit RAS with the Surface, and unit RDV with
the bus. -/

namespace Sys2Proof.Machine

open Sys2Proof.Claims

/-- The RAS side of `s`, its unit and the Surface, in the surroundings of `u`. -/
def State.rasSideIn (s u : State) : State := { u with ras := s.ras, surface := s.surface }

/-- The RDV side of `s`, its unit and the bus, in the surroundings of `u`. -/
def State.rdvSideIn (s u : State) : State := { u with rdv := s.rdv, bus := s.bus }

@[simp] theorem State.rasSideIn_ras (s u : State) : (s.rasSideIn u).ras = s.ras := rfl
@[simp] theorem State.rasSideIn_surface (s u : State) : (s.rasSideIn u).surface = s.surface := rfl
@[simp] theorem State.rasSideIn_rdv (s u : State) : (s.rasSideIn u).rdv = u.rdv := rfl
@[simp] theorem State.rasSideIn_bus (s u : State) : (s.rasSideIn u).bus = u.bus := rfl
@[simp] theorem State.rdvSideIn_rdv (s u : State) : (s.rdvSideIn u).rdv = s.rdv := rfl
@[simp] theorem State.rdvSideIn_bus (s u : State) : (s.rdvSideIn u).bus = s.bus := rfl
@[simp] theorem State.rdvSideIn_ras (s u : State) : (s.rdvSideIn u).ras = u.ras := rfl
@[simp] theorem State.rdvSideIn_surface (s u : State) : (s.rdvSideIn u).surface = u.surface := rfl

/-- Change the next state of an outcome; a fault and a refusal stay as they are. -/
def mapNext (f : State → State) : Out → Out
  | .next t => .next (f t)
  | .fault r => .fault r
  | .refused r => .refused r

@[simp] theorem mapNext_next (f : State → State) (t : State) : mapNext f (.next t) = .next (f t) := rfl

/-- `op` is confined to the side of the machine that `move` takes into other surroundings. -/
def ConfinedTo (move : State → State → State) (op : State → Out) : Prop :=
  ∀ s u, op (move s u) = mapNext (fun t => move t u) (op s)

/-- The same of an operation that always answers. -/
def CommutesWith (move : State → State → State) (op : State → State) : Prop := ∀ s u, op (move s u) = move (op s) u

theorem CommutesWith.confinedTo {move : State → State → State} {op : State → State} (h : CommutesWith move op) :
    ConfinedTo move fun s => .next (op s) := fun s u => congrArg _ (h s u)

/-- A confined operation answers in all surroundings alike. -/
theorem ConfinedTo.next {move : State → State → State} {op : State → Out} {s t : State} (h : ConfinedTo move op)
    (ht : op s = .next t) (u : State) : op (move s u) = .next (move t u) := by rw [h, ht, mapNext_next]

/-- A confined operation leaves the surroundings as they are. -/
theorem ConfinedTo.frame {move : State → State → State} {op : State → Out} {s t : State} (h : ConfinedTo move op)
    (hs : move s s = s) (ht : op s = .next t) : t = move t s := by
  have hm := h.next ht s
  rw [hs, ht] at hm
  exact Host.Outcome.next.inj hm

/-- A step that takes a confined action keeps its surroundings, and is the same step in all surroundings. -/
theorem ConfinedTo.step {move : State → State → State} {e : Event} {r1 r2 : List Event} {s1 s2 t1 : State}
    (h : ConfinedTo move (perform e)) (h1 : s1.script = e :: r1) (h2 : s2.script = e :: r2)
    (hself : move { s1 with script := r1 } { s1 with script := r1 } = { s1 with script := r1 })
    (hmove : move { s1 with script := r1 } { s2 with script := r2 } = { s2 with script := r2 })
    (ht : step s1 = .next t1) :
    t1 = move t1 { s1 with script := r1 } ∧ step s2 = .next (move t1 { s2 with script := r2 }) := by
  rw [step_cons h1] at ht
  refine ⟨h.frame hself ht, ?_⟩
  rw [step_cons h2, ← hmove, h.next ht, hmove]

/-! ### The RAS side -/

theorem rasAccept_confined (c : RasWord) (body : Ras → Ras) : ConfinedTo State.rasSideIn (rasAccept c body) := fun _ _ => rfl

theorem exec_ras_confined {i : Instr} (hi : i.isRas = true) : ConfinedTo State.rasSideIn (exec i) := by
  rcases isRas_cases hi with ⟨seq, c, hseq, hc⟩ | ⟨r, g, b, u, col, rfl⟩
  · have hx : exec i = rasAccept c (drawBody i c seq) := funext fun s => exec_drawing s hseq hc
    rw [hx]
    exact rasAccept_confined _ _
  · exact rasAccept_confined _ _

theorem rasCommand_confined (v : Word) : ConfinedTo State.rasSideIn (rasCommand v) := by
  intro s u
  unfold rasCommand
  rw [State.rasSideIn_ras]
  cases hd : decodeRas (rasWordOf s.ras.arg1 s.ras.arg0 v) with
  | ok i => exact exec_ras_confined (decodeRas_isRas _ i hd) s u
  | error e => exact rasAccept_confined _ _ s u

theorem writeRas_confined (o : Offset) (v : Word) : ConfinedTo State.rasSideIn (writeRas o v) := by
  intro s u
  unfold writeRas
  cases rasRegAt o with
  | none => rfl
  | some reg =>
    cases reg with
    | cmd => exact rasCommand_confined v s u
    | _ => rfl

theorem pixelStep_confined (p : Pixel) : ConfinedTo State.rasSideIn (pixelStep p) := by
  intro s u
  unfold pixelStep
  rw [State.rasSideIn_ras, State.rasSideIn_surface]
  split_ifs <;> rfl

theorem rasTurn_confined : ConfinedTo State.rasSideIn rasTurn := by
  intro s u
  unfold rasTurn
  rw [State.rasSideIn_ras]
  split
  · split
    · exact pixelStep_confined _ s u
    · split <;> rfl
  · rfl

theorem otherSurfaceWrite_confined (idx : Nat) (v : Color) : ConfinedTo State.rasSideIn (otherSurfaceWrite idx v) := by
  intro s u
  unfold otherSurfaceWrite
  rw [State.rasSideIn_ras, State.rasSideIn_surface]
  split_ifs <;> rfl

/-- Every action of the RAS side is confined to it. -/
theorem perform_rasSide_confined {e : Event} (he : rasSide e = true) : ConfinedTo State.rasSideIn (perform e) := by
  cases e with
  | hostWrite unit o v =>
    cases unit with
    | ras => exact writeRas_confined o v
    | rdv => cases he
  | rasTurn => exact rasTurn_confined
  | surfaceWrite idx v => exact otherSurfaceWrite_confined idx v
  | hostRead => cases he
  | busAnswer => cases he
  | reset => cases he

/-! ### The RDV side -/

theorem rdvIssue_commutes (v : Word) (w1 : List Byte) : CommutesWith State.rdvSideIn (rdvIssue v w1) := by
  intro s u
  unfold rdvIssue
  rw [State.rdvSideIn_rdv]
  split <;> rfl

theorem rdvIllegal_confined (v : Word) : ConfinedTo State.rdvSideIn (rdvIllegal v) := fun _ _ => rfl

theorem exec_rdv_confined {i : Instr} (hi : i.isRas = false) : ConfinedTo State.rdvSideIn (exec i) := by
  obtain ⟨v, hv⟩ := encode_of_not_isRas hi
  cases hw : i.wellFormed with
  | true =>
    have hx : exec i = fun s => .next (rdvIssue v (firstTransfer i) s) := funext fun s => exec_rdv s hw hv
    rw [hx]
    exact (rdvIssue_commutes v _).confinedTo
  | false =>
    have hx : exec i = rdvIllegal v := funext fun s => exec_rdv_illegal s hw hv
    rw [hx]
    exact rdvIllegal_confined v

theorem rdvCommand_confined (v : Word) : ConfinedTo State.rdvSideIn (rdvCommand v) := by
  intro s u
  unfold rdvCommand
  cases hd : decodeRdv v with
  | ok i => exact exec_rdv_confined (decodeRdv_isRdv v i hd).1 s u
  | error e => exact rdvIllegal_confined v s u

theorem rdvCtrl_commutes (v : Word) : CommutesWith State.rdvSideIn (rdvCtrl v) := by
  intro s u
  unfold rdvCtrl
  split <;> rfl

theorem writeRdv_confined (o : Offset) (v : Word) : ConfinedTo State.rdvSideIn (writeRdv o v) := by
  intro s u
  unfold writeRdv
  cases rdvRegAt o with
  | none => rfl
  | some reg =>
    cases reg with
    | ctrl => exact (rdvCtrl_commutes v).confinedTo s u
    | cmd => exact rdvCommand_confined v s u
    | _ => rfl

theorem afterWrite_commutes (req : Nat) (sub : Bool) (k : Nat) {next : State → State}
    (h : CommutesWith State.rdvSideIn next) : CommutesWith State.rdvSideIn (afterWrite req sub k next) := by
  intro s u
  unfold afterWrite
  split
  · exact h s u
  · rfl

theorem afterRead_commutes (n : Nat) (sub : Bool) (bs : List Byte) {next : State → State}
    (h : CommutesWith State.rdvSideIn next) : CommutesWith State.rdvSideIn (afterRead n sub bs next) := by
  intro s u
  unfold afterRead
  split
  · exact h s u
  · rfl

theorem rdbyteResponse_confined (addr : Byte) (ph : Phase) (a : BusAnswer) :
    ConfinedTo State.rdvSideIn (rdbyteResponse addr ph a) := by
  intro s u
  unfold rdbyteResponse
  split
  · exact (afterWrite_commutes _ _ _ fun _ _ => rfl).confinedTo s u
  · exact (afterRead_commutes _ _ _ fun _ _ => rfl).confinedTo s u
  · rfl

theorem wrbyteResponse_confined (addr value : Byte) (ph : Phase) (a : BusAnswer) :
    ConfinedTo State.rdvSideIn (wrbyteResponse addr value ph a) := by
  intro s u
  unfold wrbyteResponse
  split
  · exact (afterWrite_commutes _ _ _ fun _ _ => rfl).confinedTo s u
  · rfl

theorem rdpairResponse_confined (lowAddr : Byte) (ph : Phase) (a : BusAnswer) :
    ConfinedTo State.rdvSideIn (rdpairResponse lowAddr ph a) := by
  intro s u
  unfold rdpairResponse
  split
  · exact (afterWrite_commutes _ _ _ fun _ _ => rfl).confinedTo s u
  · exact (afterRead_commutes _ _ _ fun _ _ => rfl).confinedTo s u
  · exact (afterWrite_commutes _ _ _ fun _ _ => rfl).confinedTo s u
  · exact (afterRead_commutes _ _ _ fun _ _ => rfl).confinedTo s u
  · rfl

theorem rdblockResponse_confined (blockAddr count : Byte) (ph : Phase) (a : BusAnswer) :
    ConfinedTo State.rdvSideIn (rdblockResponse blockAddr count ph a) := by
  intro s u
  unfold rdblockResponse
  split
  · exact (afterWrite_commutes _ _ _ fun _ _ => rfl).confinedTo s u
  · exact (afterRead_commutes _ _ _ fun _ _ => rfl).confinedTo s u
  · rfl

theorem rdvResponse_confined (i : Instr) (ph : Phase) (a : BusAnswer) : ConfinedTo State.rdvSideIn (rdvResponse i ph a) := by
  cases i with
  | rdbyte addr opd => exact rdbyteResponse_confined addr ph a
  | wrbyte addr value => exact wrbyteResponse_confined addr value ph a
  | rdpair lowAddr opd => exact rdpairResponse_confined lowAddr ph a
  | rdblock blockAddr count => exact rdblockResponse_confined blockAddr count ph a
  | _ => exact fun _ _ => rfl

theorem takeAnswer_confined (n : Nat) (a : BusAnswer) : ConfinedTo State.rdvSideIn (takeAnswer n a) := by
  intro s u
  unfold takeAnswer
  rw [State.rdvSideIn_rdv, State.rdvSideIn_bus]
  split
  · split
    · split
      · split
        · exact rdvResponse_confined _ _ a s u
        · rfl
      · rfl
    · rfl
  · rfl

/-- Every action of the RDV side is confined to it. -/
theorem perform_rdvSide_confined {e : Event} (he : rdvSide e = true) : ConfinedTo State.rdvSideIn (perform e) := by
  cases e with
  | hostWrite unit o v =>
    cases unit with
    | ras => cases he
    | rdv => exact writeRdv_confined o v
  | busAnswer n a => exact takeAnswer_confined n a
  | hostRead => cases he
  | rasTurn => cases he
  | reset => cases he
  | surfaceWrite => cases he

/-! ### Host reads -/

theorem hostRead_ras_congr (o : Offset) {s1 s2 : State} (h : s1.ras = s2.ras) : hostRead .ras o s1 = hostRead .ras o s2 := by
  simp only [hostRead, h]

theorem hostRead_rdv_congr (o : Offset) {s1 s2 : State} (h : s1.rdv = s2.rdv) : hostRead .rdv o s1 = hostRead .rdv o s2 := by
  simp only [hostRead, h]

end Sys2Proof.Machine
end

