-- ==== Sys2Proof/Proofs/Scope.lean ====
section
/-! The statements of 00_scope: the two units share no state (R1), and the frames of their commands. -/

namespace Sys2Proof.Claims

open Sys2Proof.Machine

/-- Two states that agree on the RAS side answer an action of that side alike, and keep their RDV sides. -/
theorem step_rasSide {e : Event} {r1 r2 : List Event} {s1 s2 t1 : State} (he : rasSide e = true)
    (h1 : s1.script = e :: r1) (h2 : s2.script = e :: r2) (hras : s1.ras = s2.ras) (hsf : s1.surface = s2.surface)
    (ht : step s1 = .next t1) :
    t1.rdv = s1.rdv ∧ t1.bus = s1.bus ∧
    ∃ t2, step s2 = .next t2 ∧ t2.ras = t1.ras ∧ t2.surface = t1.surface ∧ t2.rdv = s2.rdv ∧ t2.bus = s2.bus := by
  have hmove : State.rasSideIn { s1 with script := r1 } { s2 with script := r2 } = { s2 with script := r2 } := by
    simp only [State.rasSideIn, hras, hsf]
  obtain ⟨hframe, h2'⟩ := (perform_rasSide_confined he).step h1 h2 rfl hmove ht
  exact ⟨by rw [hframe, State.rasSideIn_rdv], by rw [hframe, State.rasSideIn_bus], _, h2', rfl, rfl, rfl, rfl⟩

/-- Two states that agree on the RDV side answer an action of that side alike, and keep their RAS sides. -/
theorem step_rdvSide {e : Event} {r1 r2 : List Event} {s1 s2 t1 : State} (he : rdvSide e = true)
    (h1 : s1.script = e :: r1) (h2 : s2.script = e :: r2) (hrdv : s1.rdv = s2.rdv) (hbus : s1.bus = s2.bus)
    (ht : step s1 = .next t1) :
    t1.ras = s1.ras ∧ t1.surface = s1.surface ∧
    ∃ t2, step s2 = .next t2 ∧ t2.rdv = t1.rdv ∧ t2.bus = t1.bus ∧ t2.ras = s2.ras ∧ t2.surface = s2.surface := by
  have hmove : State.rdvSideIn { s1 with script := r1 } { s2 with script := r2 } = { s2 with script := r2 } := by
    simp only [State.rdvSideIn, hrdv, hbus]
  obtain ⟨hframe, h2'⟩ := (perform_rdvSide_confined he).step h1 h2 rfl hmove ht
  exact ⟨by rw [hframe, State.rdvSideIn_ras], by rw [hframe, State.rdvSideIn_surface], _, h2', rfl, rfl, rfl, rfl⟩

/-- Settles O35: every action of a side is confined to that side; reads and reset by their definitions. -/
theorem unitsShareNoState : Obligations.UnitsShareNoState := by
  refine ⟨fun _ _ _ _ _ _ => step_rasSide, fun _ _ _ _ _ _ => step_rdvSide,
    fun o _ _ => ⟨hostRead_ras_congr o, hostRead_rdv_congr o⟩, fun u o rest s t h ht => ?_, fun rest s t h ht => ?_⟩
  · rw [step_cons h] at ht
    cases ht
    exact ⟨rfl, rfl⟩
  · rw [step_cons h] at ht
    cases ht
    exact ⟨rfl, rfl⟩

/-- Settles O36, by the four things that `exec` of a RAS command can do. -/
theorem rasCommandFrame : Obligations.RasCommandFrame := by
  intro i s t hi h
  rcases exec_ras_cases hi h with
    ⟨-, -, c, -, ⟨f, -, rfl⟩ | ⟨seq, -, -, rfl⟩ | ⟨r, g, b, u, col, rfl, rfl⟩⟩ | ⟨hd, rfl⟩
  case inl.inl => simp
  case inl.inr.inl => simp
  case inl.inr.inr => simp [drawSequence]
  case inr =>
    have hbusy : ¬ rasIdle s := fun ⟨hb, he⟩ => by simp [hb, he] at hd
    simp [hbusy]

/-- Settles O37, by the three things that `exec` of an RDV command can do. -/
theorem rdvCommandFrame : Obligations.RdvCommandFrame := by
  intro i s t hi h
  rcases exec_rdv_cases hi h with ⟨-, -, v, -, ⟨-, rfl⟩ | ⟨-, rfl⟩⟩ | ⟨hd, rfl⟩
  case inl.inl => simp
  case inl.inr => simp
  case inr =>
    have hbusy : ¬ rdvIdle s := fun ⟨hb, he⟩ => by simp [hb, he] at hd
    simp [hbusy]

end Sys2Proof.Claims
end

section
/-! # The moves of a step

What one step can do to each side of the machine, said once: to unit RAS with the Surface, and to unit RDV with the bus. Every
invariant of 10_state is then a case split over the moves of its side. -/

namespace Sys2Proof.Machine

/-! ### The control registers, as equations -/

/-- R14: `RAS_CTRL` clears each of its three parts alone. -/
theorem rasCtrl_eq (v : Word) (r : Ras) : rasCtrl v r = { r with
    err := if v.getLsbD 0 then false else r.err
    errcode := if v.getLsbD 0 then .none else r.errcode
    errinfo := if v.getLsbD 0 then 0 else r.errinfo
    done := if v.getLsbD 1 then false else r.done
    ovr := if v.getLsbD 2 then false else r.ovr } := by
  unfold rasCtrl clrErr clrDone clrOvr rasClearErr
  cases v.getLsbD 0 <;> cases v.getLsbD 1 <;> cases v.getLsbD 2 <;> rfl

@[simp] theorem rasCtrl_busy (v : Word) (r : Ras) : (rasCtrl v r).busy = r.busy := by rw [rasCtrl_eq]
@[simp] theorem rasCtrl_seq (v : Word) (r : Ras) : (rasCtrl v r).seq = r.seq := by rw [rasCtrl_eq]
@[simp] theorem rasCtrl_k (v : Word) (r : Ras) : (rasCtrl v r).k = r.k := by rw [rasCtrl_eq]
@[simp] theorem rasCtrl_pixcnt (v : Word) (r : Ras) : (rasCtrl v r).pixcnt = r.pixcnt := by rw [rasCtrl_eq]
@[simp] theorem rasCtrl_lcmd (v : Word) (r : Ras) : (rasCtrl v r).lcmd = r.lcmd := by rw [rasCtrl_eq]
@[simp] theorem rasCtrl_lw (v : Word) (r : Ras) : (rasCtrl v r).lw = r.lw := by rw [rasCtrl_eq]
@[simp] theorem rasCtrl_lh (v : Word) (r : Ras) : (rasCtrl v r).lh = r.lh := by rw [rasCtrl_eq]
@[simp] theorem rasCtrl_result (v : Word) (r : Ras) : (rasCtrl v r).result = r.result := by rw [rasCtrl_eq]

/-- Unit RDV after a write of `RDV_CTRL` without `ABORT` (R29). -/
def rdvCleared (v : Word) (r : Rdv) : Rdv := { r with
    err := if v.getLsbD 0 then false else r.err
    errcode := if v.getLsbD 0 then .none else r.errcode
    errinfo := if v.getLsbD 0 then 0 else r.errinfo
    xfer := if v.getLsbD 0 then Xfer.zero else r.xfer
    done := if v.getLsbD 1 then false else r.done
    ovr := if v.getLsbD 2 then false else r.ovr }

/-- R29, R183: `RDV_CTRL` aborts, or clears each of its three parts alone. -/
theorem rdvCtrl_eq (v : Word) (s : State) :
    rdvCtrl v s = if v.getLsbD 3 then rdvAbort s else { s with rdv := rdvCleared v s.rdv } := by
  unfold rdvCtrl abortBit clrErr clrDone clrOvr rdvClearErr rdvCleared
  cases v.getLsbD 3 <;> cases v.getLsbD 0 <;> cases v.getLsbD 1 <;> cases v.getLsbD 2 <;> rfl

/-! ### The next action -/

/-- The action that the next step takes: with an empty schedule, the engine's turn (R207). -/
def State.nextAction (s : State) : Event := s.script.headD .rasTurn

theorem nextAction_cons {s : State} {e : Event} {rest : List Event} (h : s.script = e :: rest) : s.nextAction = e := by
  simp [State.nextAction, h]

theorem step_eq_perform (s : State) : step s = perform s.nextAction { s with script := s.script.tail } := by
  cases hs : s.script with
  | nil =>
    have e : { s with script := [] } = s := by rw [← hs]
    rw [step_nil hs, State.nextAction, hs, List.tail_nil, e]
    rfl
  | cons e rest => rw [step_cons hs, nextAction_cons hs, List.tail_cons]

/-! ### Unit RAS and the Surface -/

/-- What a host write can do to unit RAS (R14 to R16, R20, R24). -/
inductive RasWrite (r : Ras) : Ras → Prop where
  | keep : RasWrite r r
  | ctrl (v : Word) : RasWrite r (rasCtrl v r)
  | surfW (v : Word) : RasWrite r { r with surfW := v }
  | surfH (v : Word) : RasWrite r { r with surfH := v }
  | arg0 (v : Word) : RasWrite r { r with arg0 := v }
  | arg1 (v : Word) : RasWrite r { r with arg1 := v }
  /-- a command while `BUSY = 1` or `ERR = 1` (R24) -/
  | drop (h : r.busy = true ∨ r.err = true) : RasWrite r { r with ovr := true }
  /-- a drawing command that passes its preconditions (R20) -/
  | start {c : RasWord} {i : Instr} {seq : List Pixel} (hb : r.busy = false) (he : r.err = false) (hi : decodeRas c = .ok i)
      (hs : drawSequence i = some seq) (hf : drawFault (rasLatch c r) i = none) : RasWrite r (rasBegin seq (rasLatch c r))
  /-- a command that takes a fault in its accept step (R176) -/
  | fault {c : RasWord} {f : FaultCode} (hb : r.busy = false) (he : r.err = false)
      (hf : f = .illegalCmd ∨ f = .negRadius ∨ f = .outOfBounds) : RasWrite r (rasRaise f c.cmdValue (rasLatch c r))
  /-- `PACK565` (R70) -/
  | pack {c : RasWord} {r8 g8 b8 : Byte} {unused : BitVec 40} {color : Color} (hb : r.busy = false) (he : r.err = false)
      (hi : decodeRas c = .ok (.pack565 r8 g8 b8 unused color)) :
      RasWrite r { rasLatch c r with result := pack565 r8 g8 b8, done := true }

/-- What an action can do to unit RAS and the Surface. -/
inductive RasMove (r : Ras) (sf : Surface) : Event → Ras → Surface → Prop where
  | idle (e : Event) : RasMove r sf e r sf
  | write {o : Offset} {v : Word} {r' : Ras} (h : RasWrite r r') : RasMove r sf (.hostWrite .ras o v) r' sf
  /-- the pixel step (R22) -/
  | pixel {p : Pixel} (hb : r.busy = true) (hp : r.seq[r.k]? = some p) (hs : onSurface r.lw r.lh p.x p.y = true) :
      RasMove r sf .rasTurn { r with k := r.k + 1, pixcnt := r.pixcnt + 1 } (sf.write (pixelIndex r.lw p).toNat r.lcmd.color)
  /-- the finish step (R23) -/
  | finish (hb : r.busy = true) (hk : r.k = r.seq.length) : RasMove r sf .rasTurn (rasFinish r) sf
  | reset : RasMove r sf .reset Ras.reset sf
  /-- another agent of the Surface (R49) -/
  | other {idx : Nat} {v : Color} (hb : r.busy = false) : RasMove r sf (.surfaceWrite idx v) r (sf.write idx v)

/-- A write of `RAS_CMD` is one of the writes. -/
theorem rasCommand_write {v : Word} {s t : State} (h : rasCommand v s = .next t) :
    RasWrite s.ras t.ras ∧ t = { s with ras := t.ras } := by
  rcases rasCommand_cases h with ⟨hd, rfl⟩ | ⟨hb, he, c, -, ⟨i, seq, hi, hs, rfl⟩ | ⟨r, g, b, u, col, hi, rfl⟩ | ⟨-, rfl⟩⟩
  · exact ⟨.drop hd, rfl⟩
  · refine ⟨?_, rfl⟩
    unfold drawBody
    cases hf : drawFault (rasLatch c s.ras) i with
    | none => exact .start hb he hi hs hf
    | some f => exact .fault hb he (.inr (drawFault_code hf))
  · exact ⟨.pack hb he hi, rfl⟩
  · exact ⟨.fault hb he (.inl rfl), rfl⟩

/-- Every host write to unit RAS is one of the writes, and leaves the rest of the machine. -/
theorem writeRas_write {o : Offset} {v : Word} {s t : State} (h : writeRas o v s = .next t) :
    RasWrite s.ras t.ras ∧ t = { s with ras := t.ras } := by
  rcases writeRas_cases h with rfl | rfl | rfl | rfl | rfl | rfl | h
  · exact ⟨.keep, rfl⟩
  · exact ⟨.ctrl v, rfl⟩
  · exact ⟨.surfW v, rfl⟩
  · exact ⟨.surfH v, rfl⟩
  · exact ⟨.arg0 v, rfl⟩
  · exact ⟨.arg1 v, rfl⟩
  · exact rasCommand_write h

/-- The RDV side leaves unit RAS and the Surface (R1). -/
theorem perform_rdvSide_frame {e : Event} {s t : State} (he : Claims.rdvSide e = true) (h : perform e s = .next t) :
    t.ras = s.ras ∧ t.surface = s.surface := by
  have hf := (perform_rdvSide_confined he).frame rfl h
  exact ⟨by rw [hf, State.rdvSideIn_ras], by rw [hf, State.rdvSideIn_surface]⟩

/-- The RAS side leaves unit RDV and the bus (R1). -/
theorem perform_rasSide_frame {e : Event} {s t : State} (he : Claims.rasSide e = true) (h : perform e s = .next t) :
    t.rdv = s.rdv ∧ t.bus = s.bus := by
  have hf := (perform_rasSide_confined he).frame rfl h
  exact ⟨by rw [hf, State.rasSideIn_rdv], by rw [hf, State.rasSideIn_bus]⟩

theorem rasTurn_move {s t : State} (h : rasTurn s = .next t) : RasMove s.ras s.surface .rasTurn t.ras t.surface := by
  rcases rasTurn_cases h with ⟨hb, p, hp, h⟩ | ⟨hb, hk, rfl⟩ | ⟨-, rfl⟩
  · obtain ⟨hs, -, rfl⟩ := pixelStep_next h
    exact .pixel hb hp hs
  · exact .finish hb hk
  · exact .idle _

theorem otherSurfaceWrite_move {idx : Nat} {v : Color} {s t : State} (h : otherSurfaceWrite idx v s = .next t) :
    RasMove s.ras s.surface (.surfaceWrite idx v) t.ras t.surface := by
  unfold otherSurfaceWrite at h
  split_ifs at h with hb
  cases h
  exact .other (by simpa using hb)

theorem perform_rasMove {e : Event} {s t : State} (h : perform e s = .next t) : RasMove s.ras s.surface e t.ras t.surface := by
  have rdvCase (he : Claims.rdvSide e = true) : RasMove s.ras s.surface e t.ras t.surface := by
    obtain ⟨hr, hs⟩ := perform_rdvSide_frame he h
    rw [hr, hs]
    exact .idle e
  cases e with
  | hostWrite u o v =>
    cases u with
    | ras =>
      obtain ⟨hw, ht⟩ := writeRas_write h
      rw [ht]
      exact .write hw
    | rdv => exact rdvCase rfl
  | hostRead u o => cases h; exact .idle _
  | rasTurn => exact rasTurn_move h
  | busAnswer n a => exact rdvCase rfl
  | reset => cases h; exact .reset
  | surfaceWrite idx v => exact otherSurfaceWrite_move h

/-- All that a step can do to unit RAS and the Surface. -/
theorem step_rasMove {s t : State} (h : step s = .next t) : RasMove s.ras s.surface s.nextAction t.ras t.surface := by
  rw [step_eq_perform] at h
  exact perform_rasMove (s := { s with script := s.script.tail }) h

/-! ### Unit RDV and the bus -/

/-- What an action can do to unit RDV and the bus. -/
inductive RdvMove (r : Rdv) (b : Bus) : Rdv → Bus → Prop where
  | idle : RdvMove r b r b
  | clear (v : Word) : RdvMove r b (rdvCleared v r) b
  | abort : RdvMove r b Rdv.reset (b.issue .close)
  | reset : RdvMove r b Rdv.reset b
  /-- a command while `BUSY = 1` or `ERR = 1` (R30) -/
  | drop : RdvMove r b { r with ovr := true } b
  /-- the accept step (R132) -/
  | accept {v : Word} {i : Instr} (hb : r.busy = false) (he : r.err = false) (hi : decodeRdv v = .ok i) :
      RdvMove r b { r with lrc := v, done := false, busy := true, ph := some .w1 } (b.issue (.write (firstTransfer i)))
  /-- an illegal command word (R171) -/
  | illegal (v : Word) (hb : r.busy = false) (he : r.err = false) :
      RdvMove r b (rdvRaise .illegalCmd v Xfer.zero (rdvLatch v r)) b
  /-- a short transfer (R174) -/
  | busError (req got : Nat) (p sub : Bool) (hb : r.busy = true) : RdvMove r b (rdvBusError req got p sub r) b
  /-- the next transfer of the command in flight (R133) -/
  | request {i : Instr} {ph : Phase} (lo : Byte) (hb : r.busy = true) (hi : decodeRdv r.lrc = .ok i)
      (hp : phaseFits i ph = true) : RdvMove r b { r with ph := some ph, lo := lo } (b.issue (outstandingRequest i ph))
  /-- the finish (R139); `RDV_DATA` and the buffer have the commands that write them (R31, R32) -/
  | finish {i : Instr} {data : BitVec 16} {buf : Vector Byte 32} (hb : r.busy = true) (hi : decodeRdv r.lrc = .ok i)
      (hd : data = r.data ∨ ∃ x o, i = .rdbyte x o ∨ i = .rdpair x o) (hf : buf = r.buf ∨ ∃ x n, i = .rdblock x n) :
      RdvMove r b (rdvFinish { r with data := data, buf := buf }) b

theorem writeRdv_move {o : Offset} {v : Word} {s t : State} (h : writeRdv o v s = .next t) :
    RdvMove s.rdv s.bus t.rdv t.bus := by
  rcases writeRdv_cases h with rfl | rfl | h
  · exact .idle
  · rw [rdvCtrl_eq]
    split
    · exact .abort
    · exact .clear v
  · rcases rdvCommand_cases h with ⟨-, rfl⟩ | ⟨hb, he, ⟨i, hi, rfl⟩ | ⟨-, rfl⟩⟩
    · exact .drop
    · exact .accept hb he hi
    · exact .illegal v hb he

theorem takeAnswer_move {n : Nat} {a : BusAnswer} {s t : State} (h : takeAnswer n a s = .next t) :
    RdvMove s.rdv s.bus t.rdv t.bus := by
  rcases takeAnswer_cases h with ⟨-, rfl⟩ | ⟨hb, -, q, i, ph, -, -, -, hi, h⟩
  · exact .idle
  · rcases rdvResponse_cases h with
      ⟨-, ⟨req, got, p, sub, rfl⟩ | ⟨ph', lo, hp, rfl⟩ | ⟨data, buf, rfl, hd, hf⟩⟩
    · exact .busError req got p sub hb
    · exact .request lo hb hi hp
    · exact .finish hb hi hd hf

theorem perform_rdvMove {e : Event} {s t : State} (h : perform e s = .next t) : RdvMove s.rdv s.bus t.rdv t.bus := by
  have rasCase (he : Claims.rasSide e = true) : RdvMove s.rdv s.bus t.rdv t.bus := by
    obtain ⟨hr, hb⟩ := perform_rasSide_frame he h
    rw [hr, hb]
    exact .idle
  cases e with
  | hostWrite u o v =>
    cases u with
    | ras => exact rasCase rfl
    | rdv => exact writeRdv_move h
  | hostRead u o => cases h; exact .idle
  | rasTurn => exact rasCase rfl
  | busAnswer n a => exact takeAnswer_move h
  | reset => cases h; exact .reset
  | surfaceWrite idx v => exact rasCase rfl

/-- All that a step can do to unit RDV and the bus. -/
theorem step_rdvMove {s t : State} (h : step s = .next t) : RdvMove s.rdv s.bus t.rdv t.bus := by
  rw [step_eq_perform] at h
  exact perform_rdvMove (s := { s with script := s.script.tail }) h

/-! ### The stops of a step -/

/-- The accept step of every command answers. -/
theorem exec_answers (i : Instr) (s : State) : ∃ t, exec i s = .next t := by
  cases hi : i.isRas with
  | true =>
    rcases isRas_cases hi with ⟨seq, c, hseq, hc⟩ | ⟨r, g, b, u, col, rfl⟩
    · exact ⟨_, exec_drawing s hseq hc⟩
    · exact ⟨_, exec_pack565 ..⟩
  | false =>
    obtain ⟨v, hv⟩ := encode_of_not_isRas hi
    cases hw : i.wellFormed with
    | true => exact ⟨_, exec_rdv s hw hv⟩
    | false => exact ⟨_, exec_rdv_illegal s hw hv⟩

theorem rasCommand_answers (v : Word) (s : State) : ∃ t, rasCommand v s = .next t := by
  unfold rasCommand
  split
  · exact exec_answers _ s
  · exact ⟨_, rfl⟩

theorem rdvCommand_answers (v : Word) (s : State) : ∃ t, rdvCommand v s = .next t := by
  unfold rdvCommand
  split
  · exact exec_answers _ s
  · exact ⟨_, rfl⟩

/-- A host write always answers. -/
theorem hostWrite_answers (u : HostUnit) (o : Offset) (v : Word) (s : State) : ∃ t, hostWrite u o v s = .next t := by
  cases u with
  | ras =>
    rw [hostWrite, writeRas]
    rcases rasRegAt o with _ | reg
    · exact ⟨_, rfl⟩
    · cases reg with
      | cmd => exact rasCommand_answers v s
      | _ => exact ⟨_, rfl⟩
  | rdv =>
    rw [hostWrite, writeRdv]
    rcases rdvRegAt o with _ | reg
    · exact ⟨_, rfl⟩
    · cases reg with
      | cmd => exact rdvCommand_answers v s
      | _ => exact ⟨_, rfl⟩

/-- The engine's turn faults in its pixel step alone. -/
theorem rasTurn_fault {s : State} {f : Fault} (h : rasTurn s = .fault f) :
    (f = .pixelOffSurface ∧ s.ras.busy = true ∧ ∃ p ∈ s.ras.seq, onSurface s.ras.lw s.ras.lh p.x p.y = false) ∨
    f = .pixelOutsideStore := by
  unfold rasTurn at h
  split at h
  next hb =>
    split at h
    next p hp =>
      unfold pixelStep at h
      split_ifs at h with hs
      · cases h
        exact .inl ⟨rfl, hb, p, List.mem_of_getElem? hp, hs⟩
      · cases h
        exact .inr rfl
    next => split at h <;> cases h
  next => cases h

/-- A response step faults only with a phase or an answer that is not the command's. -/
theorem rdvResponse_fault {i : Instr} {ph : Phase} {a : BusAnswer} {s : State} {f : Fault}
    (h : rdvResponse i ph a s = .fault f) : f = .rdvPhase := by
  cases i with
  | rdbyte addr opd =>
    simp only [rdvResponse, rdbyteResponse] at h
    split at h <;> cases h
    rfl
  | wrbyte addr value =>
    simp only [rdvResponse, wrbyteResponse] at h
    split at h <;> cases h
    rfl
  | rdpair lowAddr opd =>
    simp only [rdvResponse, rdpairResponse] at h
    split at h <;> cases h
    rfl
  | rdblock blockAddr count =>
    simp only [rdvResponse, rdblockResponse] at h
    split at h <;> cases h
    rfl
  | _ => cases h; rfl

theorem takeAnswer_fault {n : Nat} {a : BusAnswer} {s : State} {f : Fault} (h : takeAnswer n a s = .fault f) :
    f = .rdvPhase := by
  unfold takeAnswer at h
  split at h
  · split at h
    · split at h
      · split at h
        · exact rdvResponse_fault h
        · cases h; rfl
      · cases h
    · cases h; rfl
  · cases h

/-- The steps that end in a fault: the pixel step off the latched Surface (R43), an access outside the provider's store, an answer
in a phase that no run reaches. -/
theorem step_fault_cases {s : State} {f : Fault} (h : step s = .fault f) :
    (f = .pixelOffSurface ∧ s.ras.busy = true ∧ ∃ p ∈ s.ras.seq, onSurface s.ras.lw s.ras.lh p.x p.y = false) ∨
    f = .pixelOutsideStore ∨
    (f = .rdvPhase ∧ ∃ n a, takeAnswer n a { s with script := s.script.tail } = .fault f) := by
  rw [step_eq_perform] at h
  cases hn : s.nextAction <;> rw [hn] at h
  case hostWrite u o v =>
    obtain ⟨t, ht⟩ := hostWrite_answers u o v { s with script := s.script.tail }
    rw [perform, ht] at h
    cases h
  case hostRead => cases h
  case rasTurn => exact (rasTurn_fault h).imp_right .inl
  case busAnswer n a => exact .inr (.inr ⟨takeAnswer_fault h, n, a, h⟩)
  case reset => cases h
  case surfaceWrite idx v =>
    simp only [perform, otherSurfaceWrite] at h
    split_ifs at h
    cases h
    exact .inr (.inl rfl)

end Sys2Proof.Machine
end

section
/-! # The invariants of the flags, the fault records and the transfer in flight

Each is a case split over the moves of a side. -/

namespace Sys2Proof.Machine

/-! ### At most one of `BUSY`, `DONE`, `ERR` (R12, R27) -/

/-- Clearing `DONE` or `ERR` keeps the flags exclusive (R14, R29). -/
theorem flagsExclusive.clear {busy done err : Bool} (h : flagsExclusive busy done err) (x y : Bool) :
    flagsExclusive busy (if x then false else done) (if y then false else err) := by
  obtain ⟨hb, he⟩ := h
  refine ⟨fun hbusy => ?_, fun herr => ?_⟩
  · simp [hb hbusy]
  · have : err = true := by cases y <;> simp_all
    simp [he this]

theorem RasWrite.flagsExclusive {r r' : Ras} (h : RasWrite r r') (hr : flagsExclusive r.busy r.done r.err) :
    flagsExclusive r'.busy r'.done r'.err := by
  cases h with
  | ctrl v =>
    rw [rasCtrl_eq]
    exact hr.clear _ _
  | start hb he => simp [Machine.flagsExclusive, he]
  | fault => simp [Machine.flagsExclusive]
  | pack hb he => simp [Machine.flagsExclusive, hb, he]
  | _ => exact hr

theorem RasMove.flagsExclusive {r r' : Ras} {sf sf' : Surface} {e : Event} (h : RasMove r sf e r' sf')
    (hr : flagsExclusive r.busy r.done r.err) : flagsExclusive r'.busy r'.done r'.err := by
  cases h with
  | write h => exact h.flagsExclusive hr
  | finish hb => simp [Machine.flagsExclusive, (hr.1 hb).2]
  | reset => simp [Machine.flagsExclusive]
  | _ => exact hr

theorem RdvMove.flagsExclusive {r r' : Rdv} {b b' : Bus} (h : RdvMove r b r' b')
    (hr : flagsExclusive r.busy r.done r.err) : flagsExclusive r'.busy r'.done r'.err := by
  cases h with
  | clear v => exact hr.clear _ _
  | accept hb he => simp [Machine.flagsExclusive, he]
  | illegal => simp [Machine.flagsExclusive]
  | busError => simp [Machine.flagsExclusive]
  | finish hb => simp [Machine.flagsExclusive, (hr.1 hb).2]
  | abort => simp [Machine.flagsExclusive]
  | reset => simp [Machine.flagsExclusive]
  | _ => exact hr

/-! ### The fault registers (R13, R28) -/

theorem RasWrite.faultInv {r r' : Ras} (h : RasWrite r r') (hr : r.faultInv) : r'.faultInv := by
  obtain ⟨hclear, hset⟩ := hr
  unfold Ras.faultInv
  cases h with
  | ctrl v =>
    rw [rasCtrl_eq]
    cases v.getLsbD 0
    · exact ⟨hclear, hset⟩
    · simp
  | start hb he => simpa [he] using hclear he
  | fault hb he hf => simpa using hf
  | pack hb he => simpa [he] using hclear he
  | _ => exact ⟨hclear, hset⟩

theorem RasMove.faultInv {r r' : Ras} {sf sf' : Surface} {e : Event} (h : RasMove r sf e r' sf') (hr : r.faultInv) :
    r'.faultInv := by
  cases h with
  | write h => exact h.faultInv hr
  | reset => simp [Ras.faultInv]
  | _ => exact hr

theorem RdvMove.faultInv {r r' : Rdv} {b b' : Bus} (h : RdvMove r b r' b') (hr : r.faultInv) : r'.faultInv := by
  obtain ⟨hclear, hset, hxfer⟩ := hr
  unfold Rdv.faultInv
  cases h with
  | clear v =>
    unfold rdvCleared
    cases v.getLsbD 0
    · exact ⟨hclear, hset, hxfer⟩
    · simp
  | accept hb he =>
    refine ⟨hclear, fun h => ?_, hxfer⟩
    simp [he] at h
  | illegal => simp
  | busError => simp
  | abort => simp
  | reset => simp
  | _ => exact ⟨hclear, hset, hxfer⟩

/-! ### The transfer in flight (R33, R131) -/

/-- The first phase of a legal RDV command is outstanding after its accept step (R132). -/
theorem firstTransfer_outstanding {v : Word} {i : Instr} (hi : decodeRdv v = .ok i) :
    phaseFits i .w1 = true ∧ outstandingRequest i .w1 = .write (firstTransfer i) := by
  obtain ⟨hr, -⟩ := decodeRdv_isRdv v i hi
  cases i <;> simp_all [Instr.isRas, phaseFits, outstandingRequest, firstTransfer]

/-- `State.transferInv`, of unit RDV and the bus alone. -/
def transferOf (r : Rdv) (b : Bus) : Prop :=
  (r.busy = false → r.ph = none) ∧
  (r.busy = true → ∃ i ph, decodeRdv r.lrc = .ok i ∧ r.ph = some ph ∧ phaseFits i ph = true ∧
    b.trace.getLast? = some (outstandingRequest i ph))

theorem transferInv_iff (s : State) : s.transferInv ↔ transferOf s.rdv s.bus := Iff.rfl

theorem transferOf_idle {r : Rdv} {b : Bus} (hb : r.busy = false) (hp : r.ph = none) : transferOf r b :=
  ⟨fun _ => hp, fun h => by simp [hb] at h⟩

theorem RdvMove.transferOf {r r' : Rdv} {b b' : Bus} (h : RdvMove r b r' b') (hr : transferOf r b) : transferOf r' b' := by
  cases h with
  | abort => exact transferOf_idle rfl rfl
  | reset => exact transferOf_idle rfl rfl
  | accept hb he hi =>
    obtain ⟨hp, hq⟩ := firstTransfer_outstanding hi
    exact ⟨fun h => by simp at h, fun _ => ⟨_, .w1, hi, rfl, hp, by simp [hq]⟩⟩
  | illegal => exact transferOf_idle rfl rfl
  | busError => exact transferOf_idle rfl rfl
  | request lo hb hi hp => exact ⟨fun h => by simp [hb] at h, fun _ => ⟨_, _, hi, rfl, hp, by simp⟩⟩
  | finish => exact transferOf_idle rfl rfl
  | _ => exact hr

/-- With the transfer of the latched command in flight, an answer is never met by a phase of another. -/
theorem takeAnswer_no_rdvPhase {s : State} (hs : s.transferInv) (n : Nat) (a : BusAnswer) :
    takeAnswer n a s ≠ .fault .rdvPhase := by
  intro h
  unfold takeAnswer at h
  split at h
  next hb =>
    obtain ⟨hbusy, hn⟩ := hb
    obtain ⟨i, ph, hi, hp, hfit, hlast⟩ := hs.2 hbusy
    have hq : s.bus.trace[n]? = some (outstandingRequest i ph) := by
      rw [← hlast, List.getLast?_eq_getElem?, ← hn, Nat.add_sub_cancel]
    simp only [hq, hi, hp] at h
    split at h
    next ha =>
      obtain ⟨t, ht⟩ := rdvResponse_ok s hfit ha
      rw [ht] at h
      cases h
    next => cases h
  next => cases h

end Sys2Proof.Machine

namespace Sys2Proof.Claims

open Sys2Proof.Machine

/-- Settles O50, by the moves of the two units. -/
theorem stepKeepsFlagsExclusive : Obligations.StepKeepsFlagsExclusive := fun _ _ hs h =>
  ⟨(step_rasMove h).flagsExclusive hs.1, (step_rdvMove h).flagsExclusive hs.2⟩

/-- Settles O51, by the moves of the two units. -/
theorem stepKeepsFaultRecords : Obligations.StepKeepsFaultRecords := fun _ _ hs h =>
  ⟨(step_rasMove h).faultInv hs.1, (step_rdvMove h).faultInv hs.2⟩

/-- Settles O54, by the moves of unit RDV; an answer to the outstanding request has a response step. -/
theorem stepKeepsTheTransferInFlight : Obligations.StepKeepsTheTransferInFlight := by
  refine ⟨fun s t hs h => (transferInv_iff t).2 ((step_rdvMove h).transferOf ((transferInv_iff s).1 hs)), fun s hs h => ?_⟩
  rcases step_fault_cases h with ⟨hf, -⟩ | hf | ⟨-, n, a, h⟩
  · cases hf
  · cases hf
  · exact takeAnswer_no_rdvPhase (s := { s with script := s.script.tail }) hs n a h

end Sys2Proof.Claims
end

section
/-! # The drawing command in progress -/

namespace Sys2Proof.Machine

/-- The two states of unit RAS are at the same point of the same drawing command. -/
structure SameProgress (r r' : Ras) : Prop where
  seq : r'.seq = r.seq
  lcmd : r'.lcmd = r.lcmd
  lw : r'.lw = r.lw
  lh : r'.lh = r.lh
  k : r'.k = r.k
  pixcnt : r'.pixcnt = r.pixcnt

theorem SameProgress.refl (r : Ras) : SameProgress r r := ⟨rfl, rfl, rfl, rfl, rfl, rfl⟩

/-- While `BUSY = 1` a host write leaves the command in progress and its progress (R15, R24). -/
theorem RasWrite.busy_frame {r r' : Ras} (h : RasWrite r r') (hb : r.busy = true) : r'.busy = true ∧ SameProgress r r' := by
  cases h with
  | ctrl v => exact ⟨by simpa using hb, by constructor <;> simp⟩
  | start hb' => simp [hb] at hb'
  | fault hb' => simp [hb] at hb'
  | pack hb' => simp [hb] at hb'
  | _ => exact ⟨hb, rfl, rfl, rfl, rfl, rfl, rfl⟩

/-- The unit has just accepted a drawing command (R20). -/
def JustStarted (r r' : Ras) : Prop :=
  ∃ c i seq, decodeRas c = .ok i ∧ drawSequence i = some seq ∧ drawFault (rasLatch c r) i = none ∧
    r' = rasBegin seq (rasLatch c r)

/-- A unit that a host write leaves busy goes on with its command, or has just accepted one. -/
theorem RasWrite.busy_after {r r' : Ras} (h : RasWrite r r') (hb : r'.busy = true) :
    (r.busy = true ∧ SameProgress r r') ∨ JustStarted r r' := by
  cases hr : r.busy with
  | true => exact .inl ⟨rfl, (h.busy_frame hr).2⟩
  | false =>
    cases h with
    | start hb' he hi hs hf => exact .inr ⟨_, _, _, hi, hs, hf, rfl⟩
    | _ => simp [hr] at hb

/-- A unit that is busy after an action goes on with its command, has written one more pixel of it, or has just accepted one. -/
theorem RasMove.busy_after {r r' : Ras} {sf sf' : Surface} {e : Event} (h : RasMove r sf e r' sf') (hb : r'.busy = true) :
    (r.busy = true ∧ SameProgress r r') ∨
    (r.busy = true ∧ (∃ p, r.seq[r.k]? = some p) ∧ r' = { r with k := r.k + 1, pixcnt := r.pixcnt + 1 }) ∨
    JustStarted r r' := by
  cases h with
  | idle => exact .inl ⟨hb, .refl r⟩
  | write hw => exact (hw.busy_after hb).imp_right .inr
  | pixel _ hp => exact .inr (.inl ⟨hb, ⟨_, hp⟩, rfl⟩)
  | finish => simp at hb
  | reset => simp at hb
  | other hb' => simp [hb'] at hb

/-- `Claims.drawnOver`, of unit RAS and the Surface alone. -/
def drawnPart (P0 : Surface) (r : Ras) (sf : Surface) : Prop :=
  (∀ p ∈ r.seq.take r.k, sf.lookup (pixelIndex r.lw p).toNat = some r.lcmd.color) ∧
  ∀ idx, (∀ p ∈ r.seq.take r.k, (pixelIndex r.lw p).toNat ≠ idx) → sf.lookup idx = P0.lookup idx

theorem drawnOver_iff (P0 : Surface) (s : State) : Claims.drawnOver P0 s ↔ drawnPart P0 s.ras s.surface := Iff.rfl

/-- The part drawn depends on the command and `k` alone. -/
theorem drawnPart_congr {P0 sf : Surface} {r r' : Ras} (h : SameProgress r r') :
    drawnPart P0 r' sf ↔ drawnPart P0 r sf := by
  unfold drawnPart
  rw [h.seq, h.lcmd, h.lw, h.k]

/-- The pixel step extends the drawn part by the pixel `SEQ[k]` (R22, R43). -/
theorem drawnPart_pixel {P0 sf : Surface} {r : Ras} {p : Pixel} (hp : r.seq[r.k]? = some p) (h : drawnPart P0 r sf) :
    drawnPart P0 { r with k := r.k + 1, pixcnt := r.pixcnt + 1 } (sf.write (pixelIndex r.lw p).toNat r.lcmd.color) := by
  obtain ⟨hin, hout⟩ := h
  have hmem (q : Pixel) : q ∈ r.seq.take (r.k + 1) ↔ q ∈ r.seq.take r.k ∨ q = p := by
    rw [List.take_add_one, hp]
    simp
  unfold drawnPart
  simp only [hmem]
  refine ⟨fun q hq => ?_, fun idx hidx => ?_⟩
  · by_cases hqp : (pixelIndex r.lw q).toNat = (pixelIndex r.lw p).toNat
    · rw [hqp, lookup_write_same]
    · rw [lookup_write_other _ _ _ _ hqp]
      exact hin q (hq.resolve_right fun e => hqp (by rw [e]))
  · rw [lookup_write_other _ _ _ _ (Ne.symm (hidx p (.inr rfl)))]
    exact hout idx fun q hq => hidx q (.inl hq)

end Sys2Proof.Machine

namespace Sys2Proof.Claims

open Sys2Proof.Machine

/-- Settles O33, by the moves of the RAS side. -/
theorem stepsExtendTheDrawnPart : Obligations.StepsExtendTheDrawnPart := by
  intro P0 s t hb hd h
  rw [drawnOver_iff] at hd
  rw [drawnOver_iff]
  have hm := step_rasMove h
  generalize s.nextAction = e, t.ras = r', t.surface = sf' at hm ⊢
  cases hm with
  | idle => exact .inl ⟨hd, rfl, rfl, rfl, .inl rfl, fun h => by simp [hb] at h⟩
  | write hw =>
    obtain ⟨hb', same⟩ := hw.busy_frame hb
    exact .inl ⟨(drawnPart_congr same).2 hd, same.seq, same.lcmd, same.lw, .inl same.k, fun h => by simp [hb'] at h⟩
  | pixel _ hp => exact .inl ⟨drawnPart_pixel hp hd, rfl, rfl, rfl, .inr rfl, fun h => by simp [hb] at h⟩
  | finish _ hk => exact .inl ⟨hd, rfl, rfl, rfl, .inl rfl, fun _ => ⟨rfl, hk⟩⟩
  | reset => exact .inr ⟨rfl, rfl⟩
  | other hb' => simp [hb] at hb'

/-- Settles O34, by the moves of the RAS side. -/
theorem commandInProgressIsUndisturbed : Obligations.CommandInProgressIsUndisturbed := by
  intro e rest s t hb hs he h
  have hm := step_rasMove h
  rw [nextAction_cons hs] at hm
  generalize t.ras = r', t.surface = sf' at hm ⊢
  cases hm with
  | idle => exact ⟨rfl, rfl, rfl, rfl, fun _ => ⟨hb, rfl, rfl, rfl⟩⟩
  | write hw =>
    obtain ⟨hb', same⟩ := hw.busy_frame hb
    exact ⟨same.seq, same.lcmd, same.lw, same.lh, fun _ => ⟨hb', same.k, same.pixcnt, rfl⟩⟩
  | pixel => exact ⟨rfl, rfl, rfl, rfl, fun h => absurd rfl h⟩
  | finish => exact ⟨rfl, rfl, rfl, rfl, fun h => absurd rfl h⟩
  | reset => exact absurd rfl he
  | other hb' => simp [hb] at hb'

end Sys2Proof.Claims
end

section
/-! # Who writes the result registers (R17, R31, R32) -/

namespace Sys2Proof.Machine

theorem RasMove.result_writer {r r' : Ras} {sf sf' : Surface} {e : Event} (h : RasMove r sf e r' sf')
    (hne : r'.result ≠ r.result) :
    r' = Ras.reset ∨ ((r.busy = false ∧ r.err = false) ∧ r'.done = true ∧ r'.busy = false ∧
      ∃ x y z u color, decodeRas r'.lcmd = .ok (.pack565 x y z u color) ∧ r'.result = pack565 x y z) := by
  cases h with
  | write hw =>
    cases hw with
    | pack hb he hi => exact .inr ⟨⟨hb, he⟩, rfl, hb, _, _, _, _, _, hi, rfl⟩
    | ctrl v => exact absurd (rasCtrl_result v r) hne
    | _ => exact absurd rfl hne
  | reset => exact .inl rfl
  | _ => exact absurd rfl hne

theorem RdvMove.data_writer {r r' : Rdv} {b b' : Bus} (h : RdvMove r b r' b') (hne : r'.data ≠ r.data) :
    r' = Rdv.reset ∨ ((∃ a o, decodeRdv r.lrc = .ok (.rdbyte a o) ∨ decodeRdv r.lrc = .ok (.rdpair a o)) ∧
      r.busy = true ∧ r'.busy = false ∧ r'.done = true) := by
  cases h with
  | abort => exact .inl rfl
  | reset => exact .inl rfl
  | finish hb hi hd =>
    obtain ⟨x, o, rfl | rfl⟩ := hd.resolve_left hne
    · exact .inr ⟨⟨x, o, .inl hi⟩, hb, rfl, rfl⟩
    · exact .inr ⟨⟨x, o, .inr hi⟩, hb, rfl, rfl⟩
  | _ => exact absurd rfl hne

theorem RdvMove.buf_writer {r r' : Rdv} {b b' : Bus} (h : RdvMove r b r' b') (hne : r'.buf ≠ r.buf) :
    r' = Rdv.reset ∨ ((∃ a n, decodeRdv r.lrc = .ok (.rdblock a n)) ∧ r.busy = true ∧ r'.busy = false ∧ r'.done = true) := by
  cases h with
  | abort => exact .inl rfl
  | reset => exact .inl rfl
  | finish hb hi _ hf =>
    obtain ⟨x, n, rfl⟩ := hf.resolve_left hne
    exact .inr ⟨⟨x, n, hi⟩, hb, rfl, rfl⟩
  | _ => exact absurd rfl hne

end Sys2Proof.Machine

namespace Sys2Proof.Claims

open Sys2Proof.Machine

/-- Settles O38, by the moves of the two units. -/
theorem resultRegistersHaveTheirWriters : Obligations.ResultRegistersHaveTheirWriters := fun _ _ h =>
  ⟨(step_rasMove h).result_writer, (step_rdvMove h).data_writer, (step_rdvMove h).buf_writer⟩

end Sys2Proof.Claims
end

section
/-! # Where the write sequences lie

For each of the seven drawing commands: the sequence is not empty, holds no pixel twice (R21), and lies in the box of its command.
The shared loops come first, then one part per shape. -/

namespace Sys2Proof.Machine

/-- The pixel lies in the box from `(x0, y0)` to `(x1, y1)`. -/
def Pixel.inBox (p : Pixel) (x0 y0 x1 y1 : Int) : Prop := x0 ≤ p.x ∧ p.x ≤ x1 ∧ y0 ≤ p.y ∧ p.y ≤ y1

/-! ### Spans and first occurrences -/

theorem span_eq (lo hi : Int) : span lo hi = (List.range (hi - lo + 1).toNat).map fun n : Nat => lo + (n : Int) := by
  simp [span, ← List.map_eq_flatMap]

@[simp] theorem mem_span {lo hi x : Int} : x ∈ span lo hi ↔ lo ≤ x ∧ x ≤ hi := by
  simp only [span_eq, List.mem_map, List.mem_range]
  constructor
  · rintro ⟨n, hn, rfl⟩
    omega
  · rintro ⟨h1, h2⟩
    exact ⟨(x - lo).toNat, by omega, by omega⟩

theorem span_nodup (lo hi : Int) : (span lo hi).Nodup := by
  rw [span_eq]
  exact List.nodup_range.map fun a b h => by simpa using h

@[simp] theorem mem_firstOccurrences {l : List Pixel} {p : Pixel} : p ∈ firstOccurrences l ↔ p ∈ l := by
  induction l with
  | nil => simp [firstOccurrences]
  | cons q qs ih =>
    by_cases h : p = q <;> simp [firstOccurrences, ih, h]

theorem firstOccurrences_nodup (l : List Pixel) : (firstOccurrences l).Nodup := by
  induction l with
  | nil => simp [firstOccurrences]
  | cons q qs ih => simp [firstOccurrences, ih.filter]

/-! ### The span fill (R95, R111) -/

theorem le_rowMax_foldl (pts : List Pixel) (j m : Int) : m ≤ pts.foldl (fun m p => if p.y = j then max m p.x else m) m := by
  induction pts generalizing m with
  | nil => exact le_refl m
  | cons p ps ih =>
    refine le_trans ?_ (ih _)
    dsimp only
    split
    · exact le_max_left ..
    · exact le_refl m

theorem rowMax_foldl_le {pts : List Pixel} {j m b : Int} (hm : m ≤ b) (h : ∀ p ∈ pts, p.x ≤ b) :
    pts.foldl (fun m p => if p.y = j then max m p.x else m) m ≤ b := by
  induction pts generalizing m with
  | nil => exact hm
  | cons p ps ih =>
    refine ih ?_ fun q hq => h q (List.mem_cons_of_mem _ hq)
    dsimp only
    split
    · exact max_le hm (h p List.mem_cons_self)
    · exact hm

theorem rowMax_nonneg (pts : List Pixel) (j : Int) : 0 ≤ rowMax pts j := le_rowMax_foldl pts j 0

theorem rowMax_le {pts : List Pixel} {j b : Int} (hb : 0 ≤ b) (h : ∀ p ∈ pts, p.x ≤ b) : rowMax pts j ≤ b :=
  rowMax_foldl_le hb h

theorem mem_spanFill {cx cy ry : Int} {xm : Int → Int} {p : Pixel} :
    p ∈ spanFill cx cy ry xm ↔ (-ry ≤ p.y - cy ∧ p.y - cy ≤ ry) ∧
      -xm ((p.y - cy).natAbs : Int) ≤ p.x - cx ∧ p.x - cx ≤ xm ((p.y - cy).natAbs : Int) := by
  simp only [spanFill, List.mem_flatMap, List.mem_map, mem_span]
  constructor
  · rintro ⟨j, hj, i, hi, rfl⟩
    simp only [add_sub_cancel_left]
    exact ⟨hj, hi⟩
  · rintro ⟨hj, hi⟩
    exact ⟨p.y - cy, hj, p.x - cx, hi, by simp⟩

theorem spanFill_nodup (cx cy ry : Int) (xm : Int → Int) : (spanFill cx cy ry xm).Nodup := by
  refine List.nodup_flatMap.2 ⟨fun j _ => (span_nodup _ _).map fun a b h => by simpa using h, ?_⟩
  refine (span_nodup (-ry) ry).imp fun hne => ?_
  simp only [Function.onFun, List.disjoint_left, List.mem_map]
  rintro _ ⟨i, -, rfl⟩ ⟨i', -, h⟩
  simp only [Pixel.mk.injEq] at h
  omega

theorem spanFill_ne_nil {cx cy ry : Int} {xm : Int → Int} (hr : 0 ≤ ry) (hm : 0 ≤ xm 0) : spanFill cx cy ry xm ≠ [] := by
  have h : ({ x := cx, y := cy } : Pixel) ∈ spanFill cx cy ry xm := mem_spanFill.2 (by simp [hr, hm])
  exact List.ne_nil_of_mem h

theorem spanFill_inBox {cx cy rx ry : Int} {xm : Int → Int} (hm : ∀ j, xm j ≤ rx) {p : Pixel}
    (hp : p ∈ spanFill cx cy ry xm) : p.inBox (cx - rx) (cy - ry) (cx + rx) (cy + ry) := by
  obtain ⟨⟨h1, h2⟩, h3, h4⟩ := mem_spanFill.1 hp
  have hb := hm ((p.y - cy).natAbs : Int)
  exact ⟨by omega, by omega, by omega, by omega⟩

/-! ### The line (R77) -/

/-- The coordinate of a pixel on the fast axis. -/
def fastOf (steep : Bool) (p : Pixel) : Int := if steep then p.y else p.x

@[simp] theorem fastOf_lineEmit (steep : Bool) (x y : Int) : fastOf steep (lineEmit steep x y) = x := by
  cases steep <;> rfl

theorem fastOf_lineWalk {steep : Bool} {dx dy ystep : Int} {n : Nat} {x y delta : Int} {p : Pixel}
    (hp : p ∈ lineWalk steep dx dy ystep n x y delta) : x < fastOf steep p := by
  induction n generalizing x y delta with
  | zero => simp [lineWalk] at hp
  | succ n ih =>
    rcases List.mem_cons.1 hp with rfl | hp
    · simp
    · have := ih hp
      omega

/-- No pixel twice: the fast axis rises (R77). -/
theorem lineWalk_nodup (steep : Bool) (dx dy ystep : Int) (n : Nat) (x y delta : Int) :
    (lineWalk steep dx dy ystep n x y delta).Nodup := by
  induction n generalizing x y delta with
  | zero => simp [lineWalk]
  | succ n ih =>
    refine List.nodup_cons.2 ⟨fun h => ?_, ih _ _ _⟩
    simpa using fastOf_lineWalk h

theorem lineFrom_nodup (steep : Bool) (dx dy x1 y1 x2 y2 : Int) : (lineFrom steep dx dy x1 y1 x2 y2).Nodup := by
  refine List.nodup_cons.2 ⟨fun h => ?_, lineWalk_nodup ..⟩
  simpa using fastOf_lineWalk h

theorem seqLine_nodup (x1 y1 x2 y2 : Int) : (seqLine x1 y1 x2 y2).Nodup := by
  unfold seqLine
  dsimp only
  split
  · exact lineFrom_nodup ..
  · exact lineFrom_nodup ..

theorem seqLine_ne_nil (x1 y1 x2 y2 : Int) : seqLine x1 y1 x2 y2 ≠ [] := by
  unfold seqLine
  dsimp only
  split
  · exact List.cons_ne_nil _ _
  · exact List.cons_ne_nil _ _

/-- After `j` steps on the cross axis and `dx - n` on the fast axis the decision variable is
`2*dy*(dx - n + 1) - dx - 2*dx*j`, so that the walk never takes more than `dy` cross steps (R77). -/
theorem mem_lineWalk {steep : Bool} {dx dy ystep : Int} {n : Nat} {x y delta j : Int} {p : Pixel}
    (hp : p ∈ lineWalk steep dx dy ystep n x y delta) (hn : (n : Int) ≤ dx) (hj : j ≤ dy) (hdy : 0 ≤ dy)
    (hd : delta = 2 * dy * (dx - n + 1) - dx - 2 * dx * j) :
    ∃ m i : Int, 0 ≤ m ∧ m ≤ n ∧ j ≤ i ∧ i ≤ dy ∧ p = lineEmit steep (x + m) (y + ystep * (i - j)) := by
  induction n generalizing x y delta j with
  | zero => simp [lineWalk] at hp
  | succ n ih =>
    push_cast at hn hd ⊢
    by_cases hpos : delta > 0
    · have hj' : j + 1 ≤ dy := by
        by_contra hlt
        have : dy = j := by omega
        nlinarith [mul_nonneg hdy (Int.natCast_nonneg n)]
      simp only [lineWalk, hpos, if_true, List.mem_cons] at hp
      rcases hp with rfl | hp
      · exact ⟨1, j + 1, by omega, by omega, by omega, hj', by congr 1; ring⟩
      · obtain ⟨m, i, h0, hm, hi, hi', rfl⟩ := ih hp (by omega) hj' (by rw [hd]; ring)
        exact ⟨m + 1, i, by omega, by omega, by omega, hi', by congr 1 <;> ring⟩
    · simp only [lineWalk, hpos, if_false, List.mem_cons] at hp
      rcases hp with rfl | hp
      · exact ⟨1, j, by omega, by omega, by omega, hj, by congr 1; ring⟩
      · obtain ⟨m, i, h0, hm, hi, hi', rfl⟩ := ih hp (by omega) hj (by rw [hd]; ring)
        exact ⟨m + 1, i, by omega, by omega, hi, hi', by congr 1; ring⟩

/-- A walk of at most `|b - a|` unit steps from `a` towards `b` stays between them. -/
theorem between_of_sign {a b i : Int} (h0 : 0 ≤ i) (hi : i ≤ (b - a).natAbs) :
    min a b ≤ a + (b - a).sign * i ∧ a + (b - a).sign * i ≤ max a b := by
  rcases lt_trichotomy (b - a) 0 with h | h | h
  · rw [Int.sign_eq_neg_one_of_neg h]; omega
  · rw [h, Int.sign_zero]; omega
  · rw [Int.sign_eq_one_of_pos h]; omega

theorem mem_lineFrom {steep : Bool} {x1 y1 x2 y2 : Int} {p : Pixel}
    (hp : p ∈ lineFrom steep (x2 - x1).natAbs (y2 - y1).natAbs x1 y1 x2 y2) :
    ∃ a b : Int, min x1 x2 ≤ a ∧ a ≤ max x1 x2 ∧ min y1 y2 ≤ b ∧ b ≤ max y1 y2 ∧ p = lineEmit steep a b := by
  unfold lineFrom at hp
  rcases List.mem_cons.1 hp with rfl | hp
  · exact ⟨_, _, by split <;> omega, by split <;> omega, by split <;> omega, by split <;> omega, rfl⟩
  · obtain ⟨m, i, h0, hm, hi, hi', rfl⟩ := mem_lineWalk (j := 0) hp (by simp) (by omega) (by omega) (by simp)
    refine ⟨_, _, ?_, ?_, ?_, ?_, rfl⟩
    · split <;> omega
    · split <;> omega
    · rw [sub_zero]
      split
      · exact min_comm y1 y2 ▸ (between_of_sign hi (by omega)).1
      · exact (between_of_sign hi (by omega)).1
    · rw [sub_zero]
      split
      · exact max_comm y1 y2 ▸ (between_of_sign hi (by omega)).2
      · exact (between_of_sign hi (by omega)).2

/-- R80 (c): a line stays in the box of its ends. -/
theorem seqLine_inBox {x1 y1 x2 y2 : Int} {p : Pixel} (hp : p ∈ seqLine x1 y1 x2 y2) :
    p.inBox (min x1 x2) (min y1 y2) (max x1 x2) (max y1 y2) := by
  unfold seqLine at hp
  dsimp only at hp
  split at hp
  · obtain ⟨a, b, h1, h2, h3, h4, rfl⟩ := mem_lineFrom hp
    exact ⟨h3, h4, h1, h2⟩
  · obtain ⟨a, b, h1, h2, h3, h4, rfl⟩ := mem_lineFrom hp
    exact ⟨h1, h2, h3, h4⟩

/-! ### The rectangles (R122, R123) -/

theorem mem_rectOutline_inBox {xa ya xb yb : Int} (hx : xa ≤ xb) (hy : ya ≤ yb) {p : Pixel}
    (hp : p ∈ rectOutline xa ya xb yb) : p.inBox xa ya xb yb := by
  unfold rectOutline at hp
  simp only [List.mem_append, List.mem_map, mem_span, List.mem_ite_nil_right] at hp
  rcases hp with ((⟨x, h, rfl⟩ | ⟨-, x, h, rfl⟩) | ⟨y, h, rfl⟩) | ⟨-, y, h, rfl⟩
  · exact ⟨h.1, h.2, le_refl _, hy⟩
  · exact ⟨h.1, h.2, hy, le_refl _⟩
  · exact ⟨le_refl _, hx, by simp only; omega, by simp only; omega⟩
  · exact ⟨hx, le_refl _, by simp only; omega, by simp only; omega⟩

theorem row_nodup (lo hi y : Int) : ((span lo hi).map fun x => ({ x := x, y := y } : Pixel)).Nodup :=
  (span_nodup lo hi).map fun a b h => by simpa using h

theorem column_nodup (lo hi x : Int) : ((span lo hi).map fun y => ({ x := x, y := y } : Pixel)).Nodup :=
  (span_nodup lo hi).map fun a b h => by simpa using h

theorem ite_nil_nodup {P : Prop} [Decidable P] {l : List Pixel} (h : l.Nodup) : (if P then l else []).Nodup := by
  split
  · exact h
  · exact List.nodup_nil

/-- R124 (a), for the outline: the second row, the first and the second column each hold only pixels not written before. -/
theorem rectOutline_nodup (xa ya xb yb : Int) : (rectOutline xa ya xb yb).Nodup := by
  refine List.nodup_append.2 ⟨List.nodup_append.2 ⟨List.nodup_append.2
    ⟨row_nodup .., ite_nil_nodup (row_nodup ..), ?_⟩, column_nodup .., ?_⟩, ite_nil_nodup (column_nodup ..), ?_⟩
  · intro p hp q hq e
    simp only [List.mem_map, mem_span, List.mem_ite_nil_right] at hp hq
    obtain ⟨x, -, rfl⟩ := hp
    obtain ⟨hlt, x', -, rfl⟩ := hq
    simp only [Pixel.mk.injEq] at e
    omega
  · intro p hp q hq e
    simp only [List.mem_append, List.mem_map, mem_span, List.mem_ite_nil_right] at hp hq
    obtain ⟨y, hy, rfl⟩ := hq
    rcases hp with ⟨x, -, rfl⟩ | ⟨-, x, -, rfl⟩ <;> simp only [Pixel.mk.injEq] at e <;> omega
  · intro p hp q hq e
    simp only [List.mem_append, List.mem_map, mem_span, List.mem_ite_nil_right] at hp hq
    obtain ⟨hlt, y, hy, rfl⟩ := hq
    rcases hp with (⟨x, -, rfl⟩ | ⟨-, x, -, rfl⟩) | ⟨y', -, rfl⟩ <;> simp only [Pixel.mk.injEq] at e <;> omega

theorem seqRect_ne_nil (x1 y1 x2 y2 : Int) : seqRect x1 y1 x2 y2 ≠ [] := by
  have h : min x1 x2 ∈ span (min x1 x2) (max x1 x2) := mem_span.2 ⟨le_refl _, min_le_max⟩
  unfold seqRect rectOutline
  simp [List.ne_nil_of_mem h]

theorem seqRect_inBox {x1 y1 x2 y2 : Int} {p : Pixel} (hp : p ∈ seqRect x1 y1 x2 y2) :
    p.inBox (min x1 x2) (min y1 y2) (max x1 x2) (max y1 y2) :=
  mem_rectOutline_inBox min_le_max min_le_max hp

theorem mem_seqRectFilled {x1 y1 x2 y2 : Int} {p : Pixel} :
    p ∈ seqRectFilled x1 y1 x2 y2 ↔ p.inBox (min x1 x2) (min y1 y2) (max x1 x2) (max y1 y2) := by
  simp only [seqRectFilled, List.mem_flatMap, List.mem_map, mem_span, Pixel.inBox]
  constructor
  · rintro ⟨y, hy, x, hx, rfl⟩
    exact ⟨hx.1, hx.2, hy.1, hy.2⟩
  · rintro ⟨h1, h2, h3, h4⟩
    exact ⟨p.y, ⟨h3, h4⟩, p.x, ⟨h1, h2⟩, rfl⟩

theorem seqRectFilled_ne_nil (x1 y1 x2 y2 : Int) : seqRectFilled x1 y1 x2 y2 ≠ [] :=
  List.ne_nil_of_mem (a := { x := min x1 x2, y := min y1 y2 })
    (mem_seqRectFilled.2 ⟨le_refl _, min_le_max, le_refl _, min_le_max⟩)

/-- R124 (a), for the filled rectangle: the rows differ. -/
theorem seqRectFilled_nodup (x1 y1 x2 y2 : Int) : (seqRectFilled x1 y1 x2 y2).Nodup := by
  refine List.nodup_flatMap.2 ⟨fun y _ => row_nodup .., (span_nodup _ _).imp fun hne => ?_⟩
  simp only [Function.onFun, List.disjoint_left, List.mem_map]
  rintro _ ⟨x, -, rfl⟩ ⟨x', -, h⟩
  simp only [Pixel.mk.injEq] at h
  exact hne h.2.symm

/-! ### The circle and the disc (R92 to R95) -/

/-- A visit of the octant walk is in its octant, and not above the row it came from (R92). -/
theorem octWalk_bounds {n : Nat} {x y d : Int} {p : Pixel} (hp : p ∈ octWalk n x y d) : x ≤ p.x ∧ p.x ≤ p.y ∧ p.y ≤ y := by
  induction n generalizing x y d with
  | zero => simp [octWalk] at hp
  | succ n ih =>
    unfold octWalk at hp
    split at hp
    next hxy =>
      rcases List.mem_cons.1 hp with rfl | hp
      · exact ⟨le_refl _, hxy, le_refl _⟩
      · split at hp <;> have := ih hp <;> omega
    next => simp at hp

theorem octWalk_rising (n : Nat) (x y d : Int) : (octWalk n x y d).Pairwise fun p q => p.x < q.x := by
  induction n generalizing x y d with
  | zero => simp [octWalk]
  | succ n ih =>
    unfold octWalk
    split
    · refine List.pairwise_cons.2 ⟨fun q hq => ?_, by split <;> exact ih ..⟩
      simp only
      split at hq <;> have := octWalk_bounds hq <;> omega
    · exact List.Pairwise.nil

theorem oct_bounds {r : Int} {p : Pixel} (hp : p ∈ oct r) : 0 ≤ p.x ∧ p.x ≤ p.y ∧ p.y ≤ r := octWalk_bounds hp

theorem oct_ne_nil {r : Int} (hr : 0 ≤ r) : oct r ≠ [] := by
  simp [oct, octWalk, hr]

/-- The mirror images of an octant point keep its two distances from the axes (R93). -/
theorem mem_plot8 {cx cy : Int} {p q : Pixel} (hx : 0 ≤ p.x) (hxy : p.x ≤ p.y) (hq : q ∈ plot8 cx cy p) :
    min (q.x - cx).natAbs (q.y - cy).natAbs = p.x.toNat ∧ max (q.x - cx).natAbs (q.y - cy).natAbs = p.y.toNat := by
  unfold plot8 at hq
  simp only [mem_firstOccurrences, List.mem_cons, List.not_mem_nil, or_false] at hq
  rcases hq with rfl | rfl | rfl | rfl | rfl | rfl | rfl | rfl <;> simp only <;> omega

theorem seqCircle_nodup (cx cy r : Int) : (seqCircle cx cy r).Nodup := by
  refine List.nodup_flatMap.2 ⟨fun p _ => firstOccurrences_nodup _, ?_⟩
  refine (octWalk_rising ..).imp_of_mem fun {p q} hp hq hlt => ?_
  simp only [Function.onFun, List.disjoint_left]
  intro a ha ha'
  obtain ⟨hp0, hp1, -⟩ := oct_bounds hp
  obtain ⟨hq0, hq1, -⟩ := oct_bounds hq
  have h1 := (mem_plot8 hp0 hp1 ha).1
  have h2 := (mem_plot8 hq0 hq1 ha').1
  omega

theorem plot8_ne_nil (cx cy : Int) (p : Pixel) : plot8 cx cy p ≠ [] := by simp [plot8, firstOccurrences]

theorem flatMap_ne_nil {l : List Pixel} {f : Pixel → List Pixel} (hl : l ≠ []) (hf : ∀ p, f p ≠ []) : l.flatMap f ≠ [] := by
  cases l with
  | nil => exact absurd rfl hl
  | cons p ps => simp [hf p]

theorem seqCircle_ne_nil {cx cy r : Int} (hr : 0 ≤ r) : seqCircle cx cy r ≠ [] :=
  flatMap_ne_nil (oct_ne_nil hr) (plot8_ne_nil cx cy)

theorem seqCircle_inBox {cx cy r : Int} {q : Pixel} (hq : q ∈ seqCircle cx cy r) :
    q.inBox (cx - r) (cy - r) (cx + r) (cy + r) := by
  obtain ⟨p, hp, hq⟩ := List.mem_flatMap.1 hq
  obtain ⟨h0, h1, h2⟩ := oct_bounds hp
  have h := (mem_plot8 h0 h1 hq).2
  exact ⟨by omega, by omega, by omega, by omega⟩

theorem quarter_le {r : Int} {p : Pixel} (hp : p ∈ quarter r) : p.x ≤ r := by
  simp only [quarter, List.mem_append, List.mem_map] at hp
  rcases hp with hp | ⟨q, hq, rfl⟩
  · have := oct_bounds hp
    omega
  · exact (oct_bounds hq).2.2

theorem seqDisc_inBox {cx cy r : Int} (hr : 0 ≤ r) {p : Pixel} (hp : p ∈ seqDisc cx cy r) :
    p.inBox (cx - r) (cy - r) (cx + r) (cy + r) :=
  spanFill_inBox (fun _ => rowMax_le hr fun _ => quarter_le) hp

/-! ### The ellipses (R107 to R111) -/

/-- What region 1 keeps (R107): the point is in the quadrant box, and as long as the region's test holds the midpoint below it is
inside the ellipse (`E(x, y - 1/2) < 0`, by 4). -/
def region1Inv (rx ry : Int) (p : Pixel) : Prop :=
  0 ≤ p.x ∧ p.x ≤ rx ∧ 0 ≤ p.y ∧ p.y ≤ ry ∧
  (ry * ry * p.x < rx * rx * p.y →
    4 * (ry * ry) * (p.x * p.x) + rx * rx * ((2 * p.y - 1) * (2 * p.y - 1)) < 4 * (rx * rx) * (ry * ry))

theorem region1Inv_start {rx ry : Int} (hx : 1 ≤ rx) (hy : 1 ≤ ry) : region1Inv rx ry { x := 0, y := ry } := by
  refine ⟨le_refl _, by simp only; omega, by simp only; omega, le_refl _, fun _ => ?_⟩
  simp only
  have : 0 < rx * rx := by positivity
  nlinarith

/-- A point with the midpoint below it inside the ellipse is left of the tip. -/
theorem lt_of_midpoint_inside {rx ry x y : Int} (hx : 1 ≤ rx)
    (h : 4 * (ry * ry) * (x * x) + rx * rx * ((2 * y - 1) * (2 * y - 1)) < 4 * (rx * rx) * (ry * ry)) : x < rx := by
  by_contra hlt
  have h1 : rx * rx ≤ x * x := by nlinarith
  have h2 : 0 ≤ rx * rx * ((2 * y - 1) * (2 * y - 1)) := mul_nonneg (mul_self_nonneg _) (mul_self_nonneg _)
  have h3 : ry * ry * (rx * rx) ≤ ry * ry * (x * x) := mul_le_mul_of_nonneg_left h1 (mul_self_nonneg _)
  linarith

theorem region1Inv_step {rx ry x y : Int} (hx : 1 ≤ rx) (h : region1Inv rx ry { x := x, y := y })
    (ht : ry * ry * x < rx * rx * y) :
    region1Inv rx ry { x := x + 1, y := if ellipseF1 (rx * rx) (ry * ry) x y ≥ 0 then y - 1 else y } := by
  obtain ⟨h0, h1, h2, h3, h4⟩ := h
  simp only at h0 h1 h2 h3 h4
  have hlt := lt_of_midpoint_inside hx (h4 ht)
  have hy0 : 1 ≤ y := by
    by_contra hn
    have : y = 0 := by omega
    subst this
    nlinarith [mul_nonneg (mul_self_nonneg ry) h0]
  refine ⟨by simp only; omega, by simp only; omega, by simp only; split <;> omega, by simp only; split <;> omega, ?_⟩
  simp only
  split
  next => -- from `(x, y)` to `(x + 1, y - 1)` the midpoint value falls, by the region's test at the new point
    intro ht'
    have h5 := h4 ht
    nlinarith [mul_self_nonneg ry]
  next hF =>
    intro _
    unfold ellipseF1 at hF
    nlinarith

/-- Region 1 keeps its invariant; its points lie before its exit (R107). -/
theorem region1_bounds {rx ry : Int} (hx : 1 ≤ rx) (n : Nat) (x y : Int)
    (h : region1Inv rx ry { x := x, y := y }) :
    region1Inv rx ry (region1 (rx * rx) (ry * ry) n x y).2 ∧ x ≤ (region1 (rx * rx) (ry * ry) n x y).2.x ∧
    ∀ p ∈ (region1 (rx * rx) (ry * ry) n x y).1,
      x ≤ p.x ∧ p.x < (region1 (rx * rx) (ry * ry) n x y).2.x ∧ p.inBox 0 0 rx ry := by
  induction n generalizing x y with
  | zero => simpa [region1] using h
  | succ n ih =>
    unfold region1
    split
    next ht =>
      obtain ⟨hinv, hle, hall⟩ := ih (x + 1) _ (region1Inv_step hx h ht)
      refine ⟨hinv, by simp only; omega, fun p hp => ?_⟩
      rcases List.mem_cons.1 hp with rfl | hp
      · obtain ⟨h0, h1, h2, h3, -⟩ := h
        exact ⟨le_refl _, by simp only; omega, h0, h1, h2, h3⟩
      · obtain ⟨h1, h2, h3⟩ := hall p hp
        exact ⟨by omega, h2, h3⟩
    next => exact ⟨h, le_refl _, by simp⟩

theorem region1_nodup {rx ry : Int} (hx : 1 ≤ rx) (n : Nat) (x y : Int)
    (h : region1Inv rx ry { x := x, y := y }) : (region1 (rx * rx) (ry * ry) n x y).1.Nodup := by
  induction n generalizing x y with
  | zero => simp [region1]
  | succ n ih =>
    unfold region1
    split
    next ht =>
      have hstep := region1Inv_step hx h ht
      refine List.nodup_cons.2 ⟨fun hp => ?_, ih _ _ hstep⟩
      have := ((region1_bounds hx n _ _ hstep).2.2 _ hp).1
      simp only at this
      omega
    next => exact List.nodup_nil

/-- Region 2 goes right only where the midpoint is inside the ellipse, so never past the tip (R107). -/
theorem region2_step_le {rx ry x y : Int} (hx : 1 ≤ rx) (hy : 1 ≤ ry) (hF : ellipseF2 (rx * rx) (ry * ry) x y ≤ 0) :
    x + 1 ≤ rx := by
  unfold ellipseF2 at hF
  by_contra hlt
  have h1 : 4 * (rx * rx) < (2 * x + 1) * (2 * x + 1) := by nlinarith
  have h2 : 0 ≤ rx * rx * ((y - 1) * (y - 1)) := mul_nonneg (mul_self_nonneg _) (mul_self_nonneg _)
  have h3 : 0 < ry * ry := by positivity
  have h4 := mul_lt_mul_of_pos_left h1 h3
  linarith

theorem region2_bounds {rx ry : Int} (hx : 1 ≤ rx) (hy : 1 ≤ ry) {n : Nat} {x y : Int} {p : Pixel} (h : x ≤ rx)
    (hp : p ∈ region2 (rx * rx) (ry * ry) n x y) : x ≤ p.x ∧ p.x ≤ rx ∧ y - n < p.y ∧ p.y ≤ y := by
  induction n generalizing x y with
  | zero => simp [region2] at hp
  | succ n ih =>
    push_cast
    rcases List.mem_cons.1 hp with rfl | hp
    · exact ⟨le_refl _, h, by simp only; omega, le_refl _⟩
    · split at hp
      next hF => have := ih (region2_step_le hx hy hF) hp; omega
      next => have := ih h hp; omega

theorem region2_falling {rx ry : Int} (hx : 1 ≤ rx) (hy : 1 ≤ ry) (n : Nat) (x y : Int) (h : x ≤ rx) :
    (region2 (rx * rx) (ry * ry) n x y).Pairwise fun p q => p.x ≤ q.x ∧ q.y < p.y := by
  induction n generalizing x y with
  | zero => simp [region2]
  | succ n ih =>
    refine List.pairwise_cons.2 ⟨fun q hq => ?_, ?_⟩
    · simp only
      split at hq
      next hF => have := region2_bounds hx hy (region2_step_le hx hy hF) hq; omega
      next => have := region2_bounds hx hy h hq; omega
    · split
      next hF => exact ih _ _ (region2_step_le hx hy hF)
      next => exact ih _ _ h

/-- Every point of region 2 lies at or left of its last one. -/
theorem region2_le_last {rx ry : Int} (hx : 1 ≤ rx) (hy : 1 ≤ ry) {n : Nat} {x y : Int} (h : x ≤ rx) {p e : Pixel}
    (hp : p ∈ region2 (rx * rx) (ry * ry) n x y) : p.x ≤ ((region2 (rx * rx) (ry * ry) n x y).getLast?.getD e).x := by
  have hfall := region2_falling hx hy n x y h
  generalize region2 (rx * rx) (ry * ry) n x y = l at hp hfall
  cases hl : l.getLast? with
  | none => simp [List.getLast?_eq_none_iff.1 hl] at hp
  | some a =>
    obtain ⟨ys, rfl⟩ := List.getLast?_eq_some_iff.1 hl
    rcases List.mem_append.1 hp with hp | hp
    · exact ((List.pairwise_append.1 hfall).2.2 p hp a (by simp)).1
    · have hpa : p = a := by simpa using hp
      simp [hpa]

/-- Region 2 from the exit `e` of region 1 (R107). -/
def lowerWalk (rx ry : Int) (e : Pixel) : List Pixel := region2 (rx * rx) (ry * ry) (e.y + 1).toNat e.x e.y

/-- The three parts of the quadrant walk (R107). -/
theorem quadWalk_parts (rx ry : Int) : ∃ one, one = region1 (rx * rx) (ry * ry) (region1Fuel rx ry) 0 ry ∧
    quadWalk rx ry = one.1 ++ lowerWalk rx ry one.2 ++
      tipCompletion ((lowerWalk rx ry one.2).getLast?.getD one.2).x rx := ⟨_, rfl, rfl⟩

theorem lowerWalk_bounds {rx ry : Int} (hx : 1 ≤ rx) (hy : 1 ≤ ry) {e p : Pixel} (he : e.x ≤ rx) (hy0 : 0 ≤ e.y)
    (hp : p ∈ lowerWalk rx ry e) : e.x ≤ p.x ∧ p.x ≤ ((lowerWalk rx ry e).getLast?.getD e).x ∧ p.x ≤ rx ∧
      0 ≤ p.y ∧ p.y ≤ e.y := by
  have := region2_bounds hx hy he hp
  exact ⟨by omega, region2_le_last hx hy he hp, by omega, by omega, by omega⟩

theorem lowerWalk_nodup {rx ry : Int} (hx : 1 ≤ rx) (hy : 1 ≤ ry) {e : Pixel} (he : e.x ≤ rx) :
    (lowerWalk rx ry e).Nodup :=
  (region2_falling hx hy _ _ _ he).imp fun h e => by rw [e] at h; omega

theorem mem_lowerWalk_start {rx ry : Int} {e : Pixel} (hy0 : 0 ≤ e.y) : e ∈ lowerWalk rx ry e := by
  obtain ⟨n, hn⟩ : ∃ n, (e.y + 1).toNat = n + 1 := ⟨e.y.toNat, by omega⟩
  rw [lowerWalk, hn]
  exact List.mem_cons_self

theorem mem_tipCompletion {xl rx : Int} {p : Pixel} (hp : p ∈ tipCompletion xl rx) : xl < p.x ∧ p.x ≤ rx ∧ p.y = 0 := by
  simp only [tipCompletion, List.mem_map, mem_span] at hp
  obtain ⟨t, ht, rfl⟩ := hp
  exact ⟨by simp only; omega, ht.2, rfl⟩

/-- Region 1 is left of its exit, region 2 between the exit and its last point, the tip right of that: no point twice (R107). -/
theorem quadWalk_spec {rx ry : Int} (hx : 1 ≤ rx) (hy : 1 ≤ ry) :
    (quadWalk rx ry).Nodup ∧ (∀ p ∈ quadWalk rx ry, p.inBox 0 0 rx ry) ∧ quadWalk rx ry ≠ [] := by
  obtain ⟨one, hone, hquad⟩ := quadWalk_parts rx ry
  obtain ⟨⟨h0, h1, h2, h3, -⟩, -, hupper⟩ :=
    region1_bounds hx (region1Fuel rx ry) 0 ry (region1Inv_start hx hy)
  have hnodup := region1_nodup hx (region1Fuel rx ry) 0 ry (region1Inv_start hx hy)
  rw [← hone] at h0 h1 h2 h3 hupper hnodup
  have hstart := mem_lowerWalk_start (rx := rx) (ry := ry) h2
  have hlower {p : Pixel} (hp : p ∈ lowerWalk rx ry one.2) := lowerWalk_bounds hx hy h1 h2 hp
  rw [hquad]
  refine ⟨List.nodup_append.2 ⟨List.nodup_append.2 ⟨hnodup, lowerWalk_nodup hx hy h1, ?_⟩, row_nodup .., ?_⟩, ?_, ?_⟩
  · rintro p hp _ hp' rfl
    have := hupper p hp
    have := hlower hp'
    omega
  · rintro p hp _ hp' rfl
    have := mem_tipCompletion hp'
    have := hlower hstart
    rcases List.mem_append.1 hp with hp | hp
    · have := hupper p hp
      omega
    · have := hlower hp
      omega
  · intro p hp
    rcases List.mem_append.1 hp with hp | hp
    · rcases List.mem_append.1 hp with hp | hp
      · exact (hupper p hp).2.2
      · have := hlower hp
        exact ⟨by omega, by omega, by omega, by omega⟩
    · have := mem_tipCompletion hp
      have := hlower hstart
      exact ⟨by omega, by omega, by omega, by omega⟩
  · exact List.ne_nil_of_mem (List.mem_append_left _ (List.mem_append_right _ hstart))

/-- The quadrant walk, degenerate or not (R107, R108): in the box of the effective extents, no point twice. -/
theorem quad_spec {rx ry : Int} (hx : 0 ≤ rx) (hy : 0 ≤ ry) :
    (quad rx ry).Nodup ∧ (∀ p ∈ quad rx ry, p.inBox 0 0 (effectiveExtent rx ry rx) (effectiveExtent rx ry ry)) ∧
    quad rx ry ≠ [] := by
  unfold quad effectiveExtent
  split
  · simp [Pixel.inBox]
  · exact quadWalk_spec (by omega) (by omega)

/-- The mirror images of a quadrant point keep its distances from the axes (R109). -/
theorem mem_plot4 {cx cy : Int} {p q : Pixel} (hx : 0 ≤ p.x) (hy : 0 ≤ p.y) (hq : q ∈ plot4 cx cy p) :
    (q.x - cx).natAbs = p.x.toNat ∧ (q.y - cy).natAbs = p.y.toNat := by
  unfold plot4 at hq
  simp only [mem_firstOccurrences, List.mem_cons, List.not_mem_nil, or_false] at hq
  rcases hq with rfl | rfl | rfl | rfl <;> simp only <;> omega

theorem seqEllipse_nodup {cx cy rx ry : Int} (hx : 0 ≤ rx) (hy : 0 ≤ ry) : (seqEllipse cx cy rx ry).Nodup := by
  obtain ⟨hnod, hbox, -⟩ := quad_spec hx hy
  refine List.nodup_flatMap.2 ⟨fun p _ => firstOccurrences_nodup _, ?_⟩
  refine hnod.imp_of_mem fun {p q} hp hq hne => ?_
  simp only [Function.onFun, List.disjoint_left]
  intro a ha ha'
  obtain ⟨hp0, -, hp1, -⟩ := hbox p hp
  obtain ⟨hq0, -, hq1, -⟩ := hbox q hq
  obtain ⟨h1, h2⟩ := mem_plot4 hp0 hp1 ha
  obtain ⟨h3, h4⟩ := mem_plot4 hq0 hq1 ha'
  obtain ⟨px, py⟩ := p
  obtain ⟨qx, qy⟩ := q
  simp only [ne_eq, Pixel.mk.injEq] at *
  omega

theorem seqEllipse_ne_nil {cx cy rx ry : Int} (hx : 0 ≤ rx) (hy : 0 ≤ ry) : seqEllipse cx cy rx ry ≠ [] :=
  flatMap_ne_nil (quad_spec hx hy).2.2 fun p => by simp [plot4, firstOccurrences]

theorem seqEllipse_inBox {cx cy rx ry : Int} (hx : 0 ≤ rx) (hy : 0 ≤ ry) {q : Pixel} (hq : q ∈ seqEllipse cx cy rx ry) :
    q.inBox (cx - effectiveExtent rx ry rx) (cy - effectiveExtent rx ry ry)
      (cx + effectiveExtent rx ry rx) (cy + effectiveExtent rx ry ry) := by
  obtain ⟨p, hp, hq⟩ := List.mem_flatMap.1 hq
  obtain ⟨h1, h2, h3, h4⟩ := (quad_spec hx hy).2.1 p hp
  obtain ⟨h5, h6⟩ := mem_plot4 h1 h3 hq
  exact ⟨by omega, by omega, by omega, by omega⟩

theorem effectiveExtent_nonneg {rx ry e : Int} (he : 0 ≤ e) : 0 ≤ effectiveExtent rx ry e := by
  unfold effectiveExtent
  split <;> omega

theorem effectiveExtent_le {rx ry e : Int} (he : 0 ≤ e) : effectiveExtent rx ry e ≤ e := by
  unfold effectiveExtent
  split <;> omega

theorem seqEllipseFilled_ne_nil {cx cy rx ry : Int} (hy : 0 ≤ ry) : seqEllipseFilled cx cy rx ry ≠ [] :=
  spanFill_ne_nil (effectiveExtent_nonneg hy) (rowMax_nonneg _ _)

theorem seqEllipseFilled_inBox {cx cy rx ry : Int} (hx : 0 ≤ rx) (hy : 0 ≤ ry) {p : Pixel}
    (hp : p ∈ seqEllipseFilled cx cy rx ry) :
    p.inBox (cx - effectiveExtent rx ry rx) (cy - effectiveExtent rx ry ry)
      (cx + effectiveExtent rx ry rx) (cy + effectiveExtent rx ry ry) :=
  spanFill_inBox (fun _ => rowMax_le (effectiveExtent_nonneg hx) fun q hq => ((quad_spec hx hy).2.1 q hq).2.1) hp

end Sys2Proof.Machine
end

section
/-! # Accepted drawing commands

The sequence of an accepted command is on the latched Surface and shorter than `2^32`; a command that runs alone draws all of it. -/

namespace Sys2Proof.Machine

/-! ### The preconditions, as inequalities -/

theorem cornersFault_none {w h : Word} {x1 y1 x2 y2 : Int} :
    (if cornersOnSurface w h x1 y1 x2 y2 then none else some FaultCode.outOfBounds) = none ↔
      (0 ≤ x1 ∧ x1 < (w.toNat : Int) ∧ 0 ≤ y1 ∧ y1 < (h.toNat : Int)) ∧
      (0 ≤ x2 ∧ x2 < (w.toNat : Int) ∧ 0 ≤ y2 ∧ y2 < (h.toNat : Int)) := by
  rw [← cornersOnSurface_iff]
  split <;> simp_all

theorem circleFault_negRadius {r : Ras} {cx cy radius : Int} (h : circleFault r cx cy radius ≠ some .negRadius) :
    0 ≤ radius := by
  by_contra hlt
  exact h (if_pos (by omega))

theorem ellipseFault_negRadius {r : Ras} {cx cy rx ry : Int} (h : ellipseFault r cx cy rx ry ≠ some .negRadius) :
    0 ≤ rx ∧ 0 ≤ ry := by
  by_contra hlt
  exact h (if_pos (by omega))

theorem circleFault_none {r : Ras} {cx cy radius : Int} : circleFault r cx cy radius = none ↔
    0 ≤ radius ∧ extentOnSurface r.lw r.lh cx cy radius radius = true := by
  unfold circleFault
  split
  next h => simp [h]
  next h => split <;> simp_all

theorem ellipseFault_none {r : Ras} {cx cy rx ry : Int} : ellipseFault r cx cy rx ry = none ↔
    (0 ≤ rx ∧ 0 ≤ ry) ∧
      extentOnSurface r.lw r.lh cx cy (effectiveExtent rx ry rx) (effectiveExtent rx ry ry) = true := by
  unfold ellipseFault
  split
  next h => simp only [reduceCtorEq, false_iff]; omega
  next h =>
    have hn : 0 ≤ rx ∧ 0 ≤ ry := by omega
    split <;> simp_all

/-! ### No pixel twice -/

/-- R21, for all seven drawing commands. -/
theorem drawSequence_spec {i : Instr} {seq : List Pixel} {r : Ras} (hs : drawSequence i = some seq)
    (hf : drawFault r i ≠ some .negRadius) : seq ≠ [] ∧ seq.Nodup := by
  cases i <;> simp only [drawSequence, Option.some.injEq, reduceCtorEq] at hs <;> subst hs
  case line => exact ⟨seqLine_ne_nil _ _ _ _, seqLine_nodup ..⟩
  case circle => exact ⟨seqCircle_ne_nil (circleFault_negRadius hf), seqCircle_nodup ..⟩
  case circleF => exact ⟨spanFill_ne_nil (circleFault_negRadius hf) (rowMax_nonneg _ _), spanFill_nodup ..⟩
  case ellipse =>
    obtain ⟨hx, hy⟩ := ellipseFault_negRadius hf
    exact ⟨seqEllipse_ne_nil hx hy, seqEllipse_nodup hx hy⟩
  case ellipseF =>
    obtain ⟨-, hy⟩ := ellipseFault_negRadius hf
    exact ⟨seqEllipseFilled_ne_nil hy, spanFill_nodup ..⟩
  case rect => exact ⟨seqRect_ne_nil _ _ _ _, rectOutline_nodup ..⟩
  case rectF => exact ⟨seqRectFilled_ne_nil _ _ _ _, seqRectFilled_nodup ..⟩

/-! ### The box of an accepted command -/

theorem signed_range (f : Field16) : -32768 ≤ signed f ∧ signed f ≤ 32767 := by
  have h1 := BitVec.le_toInt f
  have h2 := BitVec.toInt_lt (x := f)
  exact ⟨h1, by unfold signed; omega⟩

/-- The box lies on the latched Surface, and has at most 65535 columns and rows. -/
def boxFits (r : Ras) (x0 y0 x1 y1 : Int) : Prop :=
  (0 ≤ x0 ∧ x1 < (r.lw.toNat : Int) ∧ 0 ≤ y0 ∧ y1 < (r.lh.toNat : Int)) ∧ x1 - x0 ≤ 65534 ∧ y1 - y0 ≤ 65534

theorem cornerBox_fits {r : Ras} {x1 y1 x2 y2 : Field16}
    (hf : (if cornersOnSurface r.lw r.lh (signed x1) (signed y1) (signed x2) (signed y2) then none
      else some FaultCode.outOfBounds) = none) :
    boxFits r (min (signed x1) (signed x2)) (min (signed y1) (signed y2))
      (max (signed x1) (signed x2)) (max (signed y1) (signed y2)) := by
  obtain ⟨⟨a1, a2, a3, a4⟩, b1, b2, b3, b4⟩ := cornersFault_none.1 hf
  have hx1 := signed_range x1
  have hy1 := signed_range y1
  have hx2 := signed_range x2
  have hy2 := signed_range y2
  exact ⟨⟨by omega, by omega, by omega, by omega⟩, by omega, by omega⟩

theorem extentBox_fits {r : Ras} {cx cy ex ey : Int} (h : extentOnSurface r.lw r.lh cx cy ex ey = true)
    (hx : ex ≤ 32767) (hy : ey ≤ 32767) : boxFits r (cx - ex) (cy - ey) (cx + ex) (cy + ey) :=
  ⟨(extentOnSurface_iff ..).1 h, by omega, by omega⟩

theorem effectiveExtent_signed_le {rx ry e : Field16} (he : 0 ≤ signed e) :
    effectiveExtent (signed rx) (signed ry) (signed e) ≤ 32767 :=
  le_trans (effectiveExtent_le he) (signed_range e).2

/-- The sequence of an accepted drawing command lies in a box that fits (R82, R98, R114, R126). -/
theorem drawSequence_inBox {i : Instr} {seq : List Pixel} {r : Ras} (hs : drawSequence i = some seq)
    (hf : drawFault r i = none) : ∃ x0 y0 x1 y1, boxFits r x0 y0 x1 y1 ∧ ∀ p ∈ seq, p.inBox x0 y0 x1 y1 := by
  cases i <;> simp only [drawSequence, Option.some.injEq, reduceCtorEq] at hs <;> subst hs
  case line => exact ⟨_, _, _, _, cornerBox_fits hf, fun _ => seqLine_inBox⟩
  case circle cx cy radius d color =>
    obtain ⟨-, hext⟩ := circleFault_none.1 hf
    have hle := (signed_range radius).2
    exact ⟨_, _, _, _, extentBox_fits hext hle hle, fun _ => seqCircle_inBox⟩
  case circleF cx cy radius d color =>
    obtain ⟨hr, hext⟩ := circleFault_none.1 hf
    have hle := (signed_range radius).2
    exact ⟨_, _, _, _, extentBox_fits hext hle hle, fun _ => seqDisc_inBox hr⟩
  case ellipse =>
    obtain ⟨⟨hx, hy⟩, hext⟩ := ellipseFault_none.1 hf
    exact ⟨_, _, _, _, extentBox_fits hext (effectiveExtent_signed_le hx) (effectiveExtent_signed_le hy),
      fun _ => seqEllipse_inBox hx hy⟩
  case ellipseF =>
    obtain ⟨⟨hx, hy⟩, hext⟩ := ellipseFault_none.1 hf
    exact ⟨_, _, _, _, extentBox_fits hext (effectiveExtent_signed_le hx) (effectiveExtent_signed_le hy),
      fun _ => seqEllipseFilled_inBox hx hy⟩
  case rect => exact ⟨_, _, _, _, cornerBox_fits hf, fun _ => seqRect_inBox⟩
  case rectF => exact ⟨_, _, _, _, cornerBox_fits hf, fun _ => mem_seqRectFilled.1⟩

/-- R22: every pixel of an accepted command is on the latched Surface. -/
theorem drawSequence_onSurface {i : Instr} {seq : List Pixel} {r : Ras} (hs : drawSequence i = some seq)
    (hf : drawFault r i = none) : ∀ p ∈ seq, onSurface r.lw r.lh p.x p.y = true := by
  obtain ⟨x0, y0, x1, y1, ⟨⟨hx0, hx1, hy0, hy1⟩, -⟩, hbox⟩ := drawSequence_inBox hs hf
  intro p hp
  obtain ⟨h1, h2, h3, h4⟩ := hbox p hp
  exact (onSurface_iff ..).2 ⟨by omega, by omega, by omega, by omega⟩

/-- A sequence without repetition is no longer than its box is large. -/
theorem length_le_of_inBox {seq : List Pixel} {x0 y0 x1 y1 : Int} (hn : seq.Nodup)
    (hbox : ∀ p ∈ seq, p.inBox x0 y0 x1 y1) : seq.length ≤ (x1 + 1 - x0).toNat * (y1 + 1 - y0).toNat := by
  have hcard : seq.toFinset.card ≤ (Finset.Icc x0 x1 ×ˢ Finset.Icc y0 y1).card := by
    refine Finset.card_le_card_of_injOn (fun p => (p.x, p.y)) (fun p hp => ?_) fun p _ q _ h => ?_
    · obtain ⟨h1, h2, h3, h4⟩ := hbox p (by simpa using hp)
      simp [h1, h2, h3, h4]
    · obtain ⟨px, py⟩ := p
      obtain ⟨qx, qy⟩ := q
      simpa using h
  rwa [List.toFinset_card_of_nodup hn, Finset.card_product, Int.card_Icc, Int.card_Icc] at hcard

/-- R17: the pixel count of an accepted command fits its register. -/
theorem drawSequence_length_lt {i : Instr} {seq : List Pixel} {r : Ras} (hs : drawSequence i = some seq)
    (hf : drawFault r i = none) : seq.length < 2 ^ 32 := by
  obtain ⟨x0, y0, x1, y1, ⟨-, hw, hh⟩, hbox⟩ := drawSequence_inBox hs hf
  have hnodup := (drawSequence_spec (r := r) hs (by simp [hf])).2
  calc seq.length ≤ (x1 + 1 - x0).toNat * (y1 + 1 - y0).toNat := length_le_of_inBox hnodup hbox
    _ ≤ 65535 * 65535 := Nat.mul_le_mul (by omega) (by omega)
    _ < 2 ^ 32 := by norm_num

/-! ### The invariants of the command in progress

Each speaks of a busy unit alone, so that a case is left for each way in which an action leaves the unit busy. -/

theorem RasMove.seqInv {r r' : Ras} {sf sf' : Surface} {e : Event} (h : RasMove r sf e r' sf') (hr : r.seqInv) :
    r'.seqInv := by
  intro hb
  rcases h.busy_after hb with ⟨hb, same⟩ | ⟨hb, -, rfl⟩ | ⟨c, i, seq, hi, hs, -, rfl⟩
  · rw [same.lcmd, same.seq]
    exact hr hb
  · exact hr hb
  · exact ⟨i, hi, hs⟩

theorem RasMove.onSurfaceInv {r r' : Ras} {sf sf' : Surface} {e : Event} (h : RasMove r sf e r' sf')
    (hr : r.onSurfaceInv) : r'.onSurfaceInv := by
  intro hb
  rcases h.busy_after hb with ⟨hb, same⟩ | ⟨hb, -, rfl⟩ | ⟨c, i, seq, -, hs, hf, rfl⟩
  · rw [same.seq, same.lw, same.lh]
    exact hr hb
  · exact hr hb
  · exact drawSequence_onSurface hs hf

/-- The pixel step counts one, and `k` was below the length of `SEQ` (R22). -/
theorem countInv_pixel {r : Ras} {p : Pixel} (hb : r.busy = true) (hp : r.seq[r.k]? = some p) (hr : r.countInv) :
    Ras.countInv { r with k := r.k + 1, pixcnt := r.pixcnt + 1 } := by
  obtain ⟨hk, -, hlen⟩ := hr hb
  have hlt : r.k < r.seq.length := (List.getElem?_eq_some_iff.1 hp).1
  intro _
  refine ⟨?_, hlt, hlen⟩
  show (r.pixcnt + 1#32).toNat = r.k + 1
  rw [BitVec.toNat_add, hk, BitVec.toNat_one (by decide)]
  omega

theorem RasMove.countInv {r r' : Ras} {sf sf' : Surface} {e : Event} (h : RasMove r sf e r' sf') (hr : r.countInv) :
    r'.countInv := by
  intro hb
  rcases h.busy_after hb with ⟨hb, same⟩ | ⟨hb', ⟨p, hp⟩, rfl⟩ | ⟨c, i, seq, -, hs, hf, rfl⟩
  · rw [same.pixcnt, same.k, same.seq]
    exact hr hb
  · exact countInv_pixel hb' hp hr hb
  · exact ⟨rfl, Nat.zero_le _, drawSequence_length_lt hs hf⟩

end Sys2Proof.Machine

namespace Sys2Proof.Claims

open Sys2Proof.Machine

/-- Settles O48. -/
theorem writeSequencesHoldNoPixelTwice : Obligations.WriteSequencesHoldNoPixelTwice := fun _ _ _ => drawSequence_spec

/-- Settles O52, by the moves of unit RAS; the bounds check keeps the sequence in a box on the Surface. -/
theorem stepKeepsPixelsOnTheSurface : Obligations.StepKeepsPixelsOnTheSurface := by
  refine ⟨fun s t hq hs h => ⟨(step_rasMove h).seqInv hq, (step_rasMove h).onSurfaceInv hs⟩, fun s hs h => ?_⟩
  rcases step_fault_cases h with ⟨-, hb, p, hp, hoff⟩ | hf | ⟨hf, -⟩
  · simp [hs hb p hp] at hoff
  · cases hf
  · cases hf

/-- Settles O53, by the moves of unit RAS; the sequence has no pixel twice and lies in a box of at most 65535 by 65535. -/
theorem stepKeepsThePixelCount : Obligations.StepKeepsThePixelCount := fun _ _ hs h => (step_rasMove h).countInv hs

end Sys2Proof.Claims
end

section
/-! # Commands at their own step: run, dropped, accepted -/

namespace Sys2Proof.Machine

/-! ### The `CMD` registers -/

theorem perform_write_rasCmd (v : Word) (s : State) : perform (.hostWrite .ras 8#4 v) s = rasCommand v s := rfl

theorem perform_write_rdvCmd (v : Word) (s : State) : perform (.hostWrite .rdv 4#4 v) s = rdvCommand v s := rfl

theorem rasCommand_legal {v : Word} {s : State} {i : Instr} (h : decodeRas (rasWordOf s.ras.arg1 s.ras.arg0 v) = .ok i) :
    rasCommand v s = exec i s := by
  simp only [rasCommand, h]

theorem rdvCommand_legal {v : Word} {s : State} {i : Instr} (h : decodeRdv v = .ok i) : rdvCommand v s = exec i s := by
  simp only [rdvCommand, h]

/-! ### Dropped commands (R24, R30) -/

theorem exec_ras_dropped {i : Instr} {s : State} (hi : i.isRas = true) (h : s.ras.busy = true ∨ s.ras.err = true) :
    exec i s = .next { s with ras := { s.ras with ovr := true } } := by
  rcases isRas_cases hi with ⟨seq, c, hseq, hc⟩ | ⟨r, g, b, u, col, rfl⟩
  · rw [exec_drawing s hseq hc, rasAccept_dropped _ _ _ h]
  · rw [exec_pack565, rasAccept_dropped _ _ _ h]

theorem rasCommand_dropped {v : Word} {s : State} (h : s.ras.busy = true ∨ s.ras.err = true) :
    rasCommand v s = .next { s with ras := { s.ras with ovr := true } } := by
  unfold rasCommand
  split
  next i hi => exact exec_ras_dropped (decodeRas_isRas _ i hi) h
  next => exact rasAccept_dropped _ _ _ h

theorem exec_rdv_dropped {i : Instr} {s : State} (hi : i.isRas = false) (h : s.rdv.busy = true ∨ s.rdv.err = true) :
    exec i s = .next { s with rdv := { s.rdv with ovr := true } } := by
  obtain ⟨v, hv⟩ := encode_of_not_isRas hi
  cases hw : i.wellFormed with
  | true => rw [exec_rdv s hw hv, rdvIssue_dropped _ _ _ h]
  | false => rw [exec_rdv_illegal s hw hv, rdvIllegal_dropped _ _ h]

theorem rdvCommand_dropped {v : Word} {s : State} (h : s.rdv.busy = true ∨ s.rdv.err = true) :
    rdvCommand v s = .next { s with rdv := { s.rdv with ovr := true } } := by
  unfold rdvCommand
  split
  next i hi => exact exec_rdv_dropped (decodeRdv_isRdv v i hi).1 h
  next => exact rdvIllegal_dropped _ _ h

/-! ### Accepted drawing commands (R20) -/

theorem exec_accepted {i : Instr} {c : RasWord} {seq : List Pixel} {s : State} (hidle : Claims.rasIdle s)
    (hs : drawSequence i = some seq) (hc : encode i = .ras c) (hf : drawFault (rasLatch c s.ras) i = none) :
    exec i s = .next (Claims.accepted c seq s) := by
  rw [exec_drawing s hs hc, rasAccept_ready _ _ _ hidle.1 hidle.2]
  simp only [drawBody, hf]
  rfl

/-! ### The packed colour (R70, R71) -/

theorem pack565_toNat (r8 g8 b8 : Byte) :
    (pack565 r8 g8 b8).toNat = r8.toNat / 8 * 2048 + g8.toNat / 4 * 32 + b8.toNat / 8 := by
  have hr := r8.isLt
  have hg := g8.isLt
  have hb := b8.isLt
  have hor1 : 2048 * (r8.toNat / 8) + 32 * (g8.toNat / 4) = 2048 * (r8.toNat / 8) ||| 32 * (g8.toNat / 4) :=
    Nat.two_pow_add_eq_or_of_lt (i := 11) (by omega) _
  have hor2 : 32 * (64 * (r8.toNat / 8) + g8.toNat / 4) + b8.toNat / 8 =
      32 * (64 * (r8.toNat / 8) + g8.toNat / 4) ||| b8.toNat / 8 :=
    Nat.two_pow_add_eq_or_of_lt (i := 5) (by omega) _
  have hred : r8.toNat / 8 * 2048 % 65536 = 2048 * (r8.toNat / 8) := by omega
  have hgreen : g8.toNat / 4 * 32 % 65536 = 32 * (g8.toNat / 4) := by omega
  have hhigh : 32 * (64 * (r8.toNat / 8) + g8.toNat / 4) = 2048 * (r8.toNat / 8) + 32 * (g8.toNat / 4) := by omega
  have hbyte (x : Byte) : x.toNat % 65536 = x.toNat := Nat.mod_eq_of_lt (by have := x.isLt; omega)
  simp only [pack565, BitVec.toNat_or, BitVec.toNat_shiftLeft, BitVec.toNat_ushiftRight, BitVec.toNat_setWidth,
    Nat.shiftLeft_eq, Nat.shiftRight_eq_div_pow, Nat.reducePow, hbyte, hred, hgreen]
  rw [← hor1, ← hhigh, ← hor2]
  omega

end Sys2Proof.Machine

namespace Sys2Proof.Claims

open Sys2Proof.Machine

/-- Settles O6, by the register map and the decoder. -/
theorem stepRunsTheDecodedCommand : Obligations.StepRunsTheDecodedCommand := by
  refine ⟨fun s v rest i hs hi => ?_, fun s v rest i hs hi => ?_⟩
  · rw [step_cons hs, perform_write_rasCmd]
    exact rasCommand_legal hi
  · rw [step_cons hs, perform_write_rdvCmd]
    exact rdvCommand_legal hi

/-- Settles O8: legal or not, the word is dropped. -/
theorem rasCommandDroppedWhileBusyOrFaulted : Obligations.RasCommandDroppedWhileBusyOrFaulted := by
  refine ⟨fun s v rest h hs => ?_, fun i s hi h => exec_ras_dropped hi h⟩
  rw [step_cons hs, perform_write_rasCmd]
  exact rasCommand_dropped h

/-- Settles O9: legal or not, the word is dropped. -/
theorem rdvCommandDroppedWhileBusyOrFaulted : Obligations.RdvCommandDroppedWhileBusyOrFaulted := by
  refine ⟨fun s v rest h hs => ?_, fun i s hi h => exec_rdv_dropped hi h⟩
  rw [step_cons hs, perform_write_rdvCmd]
  exact rdvCommand_dropped h

/-- Settles O10: both corners on the Surface is what the three commands ask. -/
theorem lineAndRectanglesAreAccepted : Obligations.LineAndRectanglesAreAccepted := fun _ _ _ _ _ _ _ hidle h1 h2 =>
  ⟨fun hc => exec_accepted hidle rfl hc (cornersFault_none.2 ⟨h1, h2⟩),
    fun hc => exec_accepted hidle rfl hc (cornersFault_none.2 ⟨h1, h2⟩),
    fun hc => exec_accepted hidle rfl hc (cornersFault_none.2 ⟨h1, h2⟩)⟩

/-- Settles O11: the test of R98 passes. -/
theorem circlesAreAccepted : Obligations.CirclesAreAccepted := by
  intro cx cy r d color c s hidle hr hext
  have hf : circleFault (rasLatch c s.ras) (signed cx) (signed cy) (signed r) = none :=
    circleFault_none.2 ⟨hr, (extentOnSurface_iff ..).2 hext⟩
  exact ⟨fun hc => exec_accepted hidle rfl hc hf, fun hc => exec_accepted hidle rfl hc hf⟩

/-- Settles O12: the test of R114 passes with the effective extents. -/
theorem ellipsesAreAccepted : Obligations.EllipsesAreAccepted := by
  intro cx cy rx ry color c s hidle hx hy hext
  have hbox : extentOnHostSurface s cx.toInt cy.toInt (effectiveExtent rx.toInt ry.toInt rx.toInt)
      (effectiveExtent rx.toInt ry.toInt ry.toInt) := by
    unfold effectiveExtent
    split at hext
    next h0 => rwa [if_pos h0, if_pos h0]
    next h0 => rwa [if_neg h0, if_neg h0]
  have hf : ellipseFault (rasLatch c s.ras) (signed cx) (signed cy) (signed rx) (signed ry) = none :=
    ellipseFault_none.2 ⟨⟨hx, hy⟩, (extentOnSurface_iff ..).2 hbox⟩
  exact ⟨fun hc => exec_accepted hidle rfl hc hf, fun hc => exec_accepted hidle rfl hc hf⟩

/-- Settles O15: the OR of the three shifted channels is their sum. -/
theorem pack565Completes : Obligations.Pack565Completes := by
  intro r8 g8 b8 unused color c s hidle hc
  cases hc
  have hv : pack565 r8 g8 b8 = BitVec.ofNat 16 (r8.toNat / 8 * 2048 + g8.toNat / 4 * 32 + b8.toNat / 8) := by
    rw [← pack565_toNat, BitVec.ofNat_toNat, BitVec.setWidth_eq]
  rw [exec_pack565, rasAccept_ready _ _ _ hidle.1 hidle.2, hv]
  rfl

end Sys2Proof.Claims
end

section
/-! # The engine's turns -/

namespace Sys2Proof.Machine

theorem rasTurn_pixel {s : State} {p : Pixel} (hb : s.ras.busy = true) (hp : s.ras.seq[s.ras.k]? = some p) :
    rasTurn s = pixelStep p s := by
  simp only [rasTurn, hb, hp, if_true]

theorem rasTurn_finish {s : State} (hb : s.ras.busy = true) (hk : s.ras.k = s.ras.seq.length) :
    rasTurn s = .next { s with ras := rasFinish s.ras } := by
  have hp : s.ras.seq[s.ras.k]? = none := List.getElem?_eq_none_iff.2 hk.ge
  simp only [rasTurn, hb, hp, if_true, if_pos hk]

theorem rasTurn_idle {s : State} (hb : s.ras.busy = false) : rasTurn s = .next s := by
  simp [rasTurn, hb]

/-- With the provider's true dimensions latched, a pixel on the latched Surface is in the provider's store (R43, R199). -/
theorem pixelIndex_lt_size {s : State} {p : Pixel} (h : s.dimensionsHonest)
    (hp : onSurface s.ras.lw s.ras.lh p.x p.y = true) : (pixelIndex s.ras.lw p).toNat < s.surface.size := by
  obtain ⟨hw, hh⟩ := h
  obtain ⟨hx0, hx, hy0, hy⟩ := (onSurface_iff ..).1 hp
  have hnonneg : 0 ≤ p.x + p.y * dim s.ras.lw := by unfold dim; positivity
  have hlt : p.x + p.y * dim s.ras.lw < s.surface.width.toNat * s.surface.height.toNat := by
    unfold dim
    rw [← hw]
    have hy' : p.y + 1 ≤ s.surface.height.toNat := by omega
    nlinarith
  have hle := pixelIndex_toNat_le s.ras.lw p hnonneg
  unfold Surface.size
  zify at hle ⊢
  rw [Int.toNat_of_nonneg hnonneg] at hle
  exact lt_of_le_of_lt hle hlt

/-- The pixel step of a command in progress on the provider's true dimensions. -/
theorem step_pixel {s : State} {p : Pixel} (hn : s.script = []) (hb : s.ras.busy = true)
    (hp : s.ras.seq[s.ras.k]? = some p) (hon : s.ras.onSurfaceInv) (hd : s.dimensionsHonest) :
    step s = .next { s with
      surface := s.surface.write (pixelIndex s.ras.lw p).toNat s.ras.lcmd.color
      ras := { s.ras with k := s.ras.k + 1, pixcnt := s.ras.pixcnt + 1 } } := by
  have hs := hon hb p (List.mem_of_getElem? hp)
  rw [step_nil hn, rasTurn_pixel hb hp, pixelStep_ok hs (pixelIndex_lt_size hd hs)]

/-- R22, R23, R25: a command in progress with `n` pixels to write, alone on the provider's true dimensions, is finished after
`n + 1` steps, with every pixel drawn and counted. -/
theorem runSteps_draws {P0 : Surface} {n : Nat} {s : State} (hn : s.script = []) (hb : s.ras.busy = true)
    (hk : s.ras.k + n = s.ras.seq.length) (hon : s.ras.onSurfaceInv) (hc : s.ras.countInv) (hd : s.dimensionsHonest)
    (hdrawn : drawnPart P0 s.ras s.surface) :
    ∃ u, runSteps (n + 1) s = .next u ∧ drawnPart P0 u.ras u.surface ∧ u.ras.pixcnt.toNat = s.ras.seq.length ∧
      u = { s with
        ras := rasFinish { s.ras with k := s.ras.seq.length, pixcnt := u.ras.pixcnt }, surface := u.surface } := by
  induction n generalizing s with
  | zero =>
    have hk' : s.ras.k = s.ras.seq.length := by simpa using hk
    obtain ⟨hcount, -, -⟩ := hc hb
    refine ⟨{ s with ras := rasFinish s.ras }, ?_, hdrawn, by simpa using hcount.trans hk', by rw [← hk']; rfl⟩
    simp only [runSteps, step_nil hn, rasTurn_finish hb hk']
  | succ n ih =>
    obtain ⟨p, hp⟩ : ∃ p, s.ras.seq[s.ras.k]? = some p := ⟨_, List.getElem?_eq_getElem (by omega)⟩
    obtain ⟨u, hu, hdu, hcu, he⟩ := ih (s := { s with
        surface := s.surface.write (pixelIndex s.ras.lw p).toNat s.ras.lcmd.color
        ras := { s.ras with k := s.ras.k + 1, pixcnt := s.ras.pixcnt + 1 } })
      hn hb (by simp only; omega) hon (countInv_pixel hb hp hc) hd (drawnPart_pixel hp hdrawn)
    refine ⟨u, ?_, hdu, hcu, he⟩
    rw [runSteps, step_pixel hn hb hp hon hd]
    exact hu

end Sys2Proof.Machine

namespace Sys2Proof.Claims

open Sys2Proof.Machine

/-- Settles O29: the index is the one of R22, as it fits the port. -/
theorem pixelStepWritesOnePixel : Obligations.PixelStepWritesOnePixel := by
  intro s p rest hs hb hp hx0 hx hy0 hy h48 hsize
  have hnonneg : 0 ≤ p.x + p.y * dim s.ras.lw := by unfold dim; positivity
  have hidx : (pixelIndex s.ras.lw p).toNat = (p.x + p.y * (s.ras.lw.toNat : Int)).toNat :=
    pixelIndex_toNat _ _ hnonneg h48
  have hon := (onSurface_iff s.ras.lw s.ras.lh p.x p.y).2 ⟨hx0, hx, hy0, hy⟩
  refine ⟨{ s with
    script := rest
    surface := s.surface.write (pixelIndex s.ras.lw p).toNat s.ras.lcmd.color
    ras := { s.ras with k := s.ras.k + 1, pixcnt := s.ras.pixcnt + 1 } }, ?_, ?_, ?_, rfl, rfl, rfl⟩
  · rw [step_cons hs]
    exact (rasTurn_pixel (s := { s with script := rest }) hb hp).trans (pixelStep_ok hon (hidx ▸ hsize))
  · rw [← hidx]
    exact lookup_write_same ..
  · rw [← hidx]
    exact fun idx hne => lookup_write_other _ _ _ _ hne

/-- Settles O30. -/
theorem finishAndIdleTurns : Obligations.FinishAndIdleTurns := by
  refine fun s rest hs => ⟨fun hb hk => ?_, fun hb => ?_⟩
  · rw [step_cons hs]
    exact rasTurn_finish (s := { s with script := rest }) hb hk
  · rw [step_cons hs]
    exact rasTurn_idle (s := { s with script := rest }) hb

/-- Settles O32: the accept step establishes what `runSteps_draws` asks. -/
theorem drawingCommandNetEffect : Obligations.DrawingCommandNetEffect := by
  intro i seq c s hidle hn hc ⟨hs, hf⟩ hw hh
  have hf' : drawFault (rasLatch c s.ras) i = none := by
    rw [← hf]
    cases i <;> rfl
  have hon := drawSequence_onSurface hs hf'
  have hlen := drawSequence_length_lt hs hf'
  obtain ⟨u, hu, ⟨hin, hout⟩, hcount, he⟩ := runSteps_draws (P0 := s.surface) (n := seq.length) (s := accepted c seq s)
    hn rfl (by simp [accepted]) (fun _ => hon) (fun _ => ⟨rfl, Nat.zero_le _, hlen⟩) ⟨hw, hh⟩
    ⟨by simp [accepted], by simp [accepted]⟩
  refine ⟨_, u, exec_accepted hidle hs hc hf', hu, ?_⟩
  generalize u.ras.pixcnt = n, u.surface = sf at he hcount hin hout
  subst he
  have htake : seq.take seq.length = seq := List.take_length
  simp only [accepted, rasFinish, htake] at hin hout hcount
  exact ⟨hin, hout, hcount, rfl, rfl, hidle.2, rfl, rfl⟩

end Sys2Proof.Claims
end

section
/-! # The host port and reset -/

namespace Sys2Proof.Machine

/-! ### The registers as words -/

/-- `STATUS` is its four flags under 28 zeros (R12, R27). -/
theorem statusWord_eq (busy done err ovr : Bool) : statusWord busy done err ovr =
    (0 : BitVec 28) ++ BitVec.ofBool ovr ++ BitVec.ofBool err ++ BitVec.ofBool done ++ BitVec.ofBool busy := by
  cases busy <;> cases done <;> cases err <;> cases ovr <;> decide

/-- A shorter value read as 32 bits stands under zeros. -/
theorem zeros_append {n m : Nat} (x : BitVec n) : x.setWidth (m + n) = (0 : BitVec m) ++ x := by
  apply BitVec.eq_of_toNat_eq
  have hlt : x.toNat < 2 ^ (m + n) := lt_of_lt_of_le x.isLt (Nat.pow_le_pow_right (by decide) (Nat.le_add_left n m))
  simp [BitVec.toNat_append, Nat.mod_eq_of_lt hlt]

/-! ### The register maps -/

theorem rasRegAt_none {o : Offset} (h : 11 ≤ o.toNat) : rasRegAt o = none := by
  revert o
  decide

theorem rdvRegAt_buf (n : Fin 8) : rdvRegAt (BitVec.ofNat 4 (8 + n.val)) = some (.buf n) := by
  revert n
  decide

/-- Below `RAS_CTRL` and above `RAS_CMD` there are read-only registers and offsets with no register (R11). -/
theorem rasRegAt_readOnly {o : Offset} (h : o.toNat < 3 ∨ 8 < o.toNat) :
    rasRegAt o = none ∨ ∃ reg ∈ [RasReg.status, .errcode, .errinfo, .result, .pixcnt], rasRegAt o = some reg := by
  revert o
  decide

/-- The same of unit RDV, above `RDV_CMD` (R26). -/
theorem rdvRegAt_readOnly {o : Offset} (h : o.toNat < 3 ∨ 4 < o.toNat) :
    rdvRegAt o = none ∨ (∃ n, rdvRegAt o = some (.buf n)) ∨
      ∃ reg ∈ [RdvReg.status, .errcode, .errinfo, .data, .xfer], rdvRegAt o = some reg := by
  revert o
  decide

theorem writeRas_ignored {o : Offset} (h : o.toNat < 3 ∨ 8 < o.toNat) (v : Word) (s : State) :
    writeRas o v s = .next s := by
  unfold writeRas
  rcases rasRegAt_readOnly h with hr | ⟨reg, hreg, hr⟩
  · rw [hr]
  · rw [hr]
    fin_cases hreg <;> rfl

theorem writeRdv_ignored {o : Offset} (h : o.toNat < 3 ∨ 4 < o.toNat) (v : Word) (s : State) :
    writeRdv o v s = .next s := by
  unfold writeRdv
  rcases rdvRegAt_readOnly h with hr | ⟨n, hr⟩ | ⟨reg, hreg, hr⟩
  · rw [hr]
  · rw [hr]
  · rw [hr]
    fin_cases hreg <;> rfl

/-! ### The writes that store -/

theorem perform_write_rasCtrl (v : Word) (s : State) :
    perform (.hostWrite .ras 3#4 v) s = .next { s with ras := rasCtrl v s.ras } := rfl

theorem perform_write_rdvCtrl (v : Word) (s : State) : perform (.hostWrite .rdv 3#4 v) s = .next (rdvCtrl v s) := rfl

theorem perform_write_surfW (v : Word) (s : State) :
    perform (.hostWrite .ras 4#4 v) s = .next { s with ras := { s.ras with surfW := v } } := rfl

theorem perform_write_surfH (v : Word) (s : State) :
    perform (.hostWrite .ras 5#4 v) s = .next { s with ras := { s.ras with surfH := v } } := rfl

theorem perform_write_arg0 (v : Word) (s : State) :
    perform (.hostWrite .ras 6#4 v) s = .next { s with ras := { s.ras with arg0 := v } } := rfl

theorem perform_write_arg1 (v : Word) (s : State) :
    perform (.hostWrite .ras 7#4 v) s = .next { s with ras := { s.ras with arg1 := v } } := rfl

end Sys2Proof.Machine

namespace Sys2Proof.Claims

open Sys2Proof.Machine

/-- Settles O24. -/
theorem rasControlWrite : Obligations.RasControlWrite := by
  refine fun s v rest => ⟨fun hs => ?_, rfl⟩
  rw [step_cons hs, perform_write_rasCtrl, rasCtrl_eq]

/-- Settles O25: the abort, or the clears. -/
theorem rdvControlWrite : Obligations.RdvControlWrite := by
  refine fun s v rest hs => ⟨rfl, fun habort => ?_, fun habort => ?_⟩
  · rw [step_cons hs, perform_write_rdvCtrl, rdvCtrl_eq, if_pos habort]
    rfl
  · rw [step_cons hs, perform_write_rdvCtrl, rdvCtrl_eq, if_neg (Bool.eq_false_iff.1 habort)]
    rfl

/-- Settles O26: the action by its definition, the registers one by one. -/
theorem hostReadsHaveNoSideEffect : Obligations.HostReadsHaveNoSideEffect := by
  intro s u o rest
  refine ⟨fun hs => ?_, statusWord_eq .., statusWord_eq .., rfl, rfl, zeros_append (n := 16) (m := 16) _, rfl, rfl,
    zeros_append (n := 16) (m := 16) _, zeros_append (n := 4) (m := 28) _, zeros_append (n := 4) (m := 28) _, rfl,
    ⟨rfl, rfl, rfl, rfl, rfl⟩, rfl, fun n => ?_, fun ho => ?_, rfl⟩
  · rw [step_cons hs]
    cases u <;> rfl
  · simp only [hostRead, rdvRegAt_buf]
    rfl
  · simp only [hostRead, rasRegAt_none ho]
    rfl

/-- Settles O27: the four plain registers one by one; every other write by the register maps. -/
theorem plainRegistersStoreAndOthersIgnoreWrites : Obligations.PlainRegistersStoreAndOthersIgnoreWrites := by
  refine fun s o v rest => ⟨fun hs => ⟨_, ?_, rfl, rfl⟩, fun hs => ⟨_, ?_, rfl, rfl⟩, fun hs => ⟨_, ?_, rfl, rfl⟩,
    fun hs => ⟨_, ?_, rfl, rfl⟩, fun hs ho => ?_, fun hs ho => ?_⟩
  · rw [step_cons hs, perform_write_surfW]
  · rw [step_cons hs, perform_write_surfH]
  · rw [step_cons hs, perform_write_arg0]
  · rw [step_cons hs, perform_write_arg1]
  · rw [step_cons hs]
    exact writeRas_ignored ho v _
  · rw [step_cons hs]
    exact writeRdv_ignored ho v _

/-- Settles O28. -/
theorem resetAtAnyMoment : Obligations.ResetAtAnyMoment := by
  intro s rest hs
  refine ⟨resetInput { s with script := rest }, ?_, rfl, rfl, rfl, rfl, fun i => ?_, rfl, rfl, rfl⟩
  · rw [step_cons hs]
    rfl
  · exact Vector.getElem_replicate i.isLt

/-- Settles O56: both units are idle, with no fault and no transfer, and no pixel is listed. -/
theorem resetMeetsTheInvariants : Obligations.ResetMeetsTheInvariants := by
  refine ⟨?_, ?_, ?_, ?_, ?_, transferOf_idle rfl rfl, reset_surface_wf⟩
  · simp [State.flagsInv, flagsExclusive]
  · simp [State.faultInv, Ras.faultInv, Rdv.faultInv]
  · simp [Ras.seqInv]
  · simp [Ras.onSurfaceInv]
  · simp [Ras.countInv]

end Sys2Proof.Claims
end

section
/-! # The block read -/

namespace Sys2Proof.Machine

theorem decodeRdv_rdblock {addr count : Byte} (h1 : 1 ≤ count.toNat) (h2 : count.toNat ≤ 32) :
    decodeRdv (rdvWord 0x13 addr count) = .ok (.rdblock addr count) := by
  simp [decodeRdv, Config.blockMax, h1, h2]

/-- The step that takes the answer to the outstanding request is the response step of the latched command (R133). -/
theorem step_busAnswer {s : State} {n : Nat} {a : BusAnswer} {rest : List Event} {q : BusRequest} {i : Instr} {ph : Phase}
    {before : List BusRequest} (hs : s.script = .busAnswer n a :: rest) (hb : s.rdv.busy = true)
    (ht : s.bus.trace = before ++ [q]) (hn : n = before.length) (hf : BusAnswer.fits q a = true)
    (hp : s.rdv.ph = some ph) (hi : decodeRdv s.rdv.lrc = .ok i) :
    step s = rdvResponse i ph a { s with script := rest } := by
  rw [step_cons hs]
  exact takeAnswer_outstanding (s := { s with script := rest }) hb ht hn hf hp hi

theorem runSteps_two {s t u : State} (h1 : step s = .next t) (h2 : step t = .next u) : runSteps 2 s = .next u := by
  simp only [runSteps, h1, h2]

section
variable {s : State} {addr count : Byte} {before : List BusRequest} {rest : List Event}

/-- A whole write transfer of `RDBLOCK` is followed by the request of `count` bytes (R138). -/
theorem step_rdblock_written (hs : s.script = .busAnswer before.length (.count 2) :: rest) (hb : s.rdv.busy = true)
    (ht : s.bus.trace = before ++ [.write (rdblockWrite addr count)]) (hp : s.rdv.ph = some .w1)
    (hi : decodeRdv s.rdv.lrc = .ok (.rdblock addr count)) :
    step s = .next (rdvRequest .r1 (.read count.toNat) { s with script := rest }) :=
  step_busAnswer hs hb ht rfl rfl hp hi

/-- A whole read transfer of `RDBLOCK` finishes it, with the bytes in the buffer (R138, R139). -/
theorem step_rdblock_read {bs : List Byte} {n : Nat} (hs : s.script = .busAnswer n (.bytes bs) :: rest)
    (hb : s.rdv.busy = true) (ht : s.bus.trace = before ++ [.read count.toNat]) (hn : n = before.length)
    (hp : s.rdv.ph = some .r1) (hi : decodeRdv s.rdv.lrc = .ok (.rdblock addr count)) (hl : bs.length = count.toNat) :
    step s = .next { s with
      script := rest, rdv := rdvFinish { s.rdv with buf := storeBlock bs s.rdv.buf } } := by
  rw [step_busAnswer hs hb ht hn (by simp [BusAnswer.fits, hl]) hp hi]
  simp only [rdvResponse, rdblockResponse, afterRead, if_pos hl]

end

/-- R32, R138: a byte received, or the byte that was there. -/
theorem storeBlock_getElem (bs : List Byte) (buf : Vector Byte 32) (i : Fin 32) :
    (storeBlock bs buf)[i] = if h : i.val < bs.length then bs[i.val] else buf[i] := by
  have h : (storeBlock bs buf)[i] = (bs[i.val]?).getD buf[i] := by simp [storeBlock]
  rw [h]
  split
  next hlt => rw [List.getElem?_eq_getElem hlt, Option.getD_some]
  next hge => rw [List.getElem?_eq_none (by omega), Option.getD_none]

end Sys2Proof.Machine

namespace Sys2Proof.Claims

open Sys2Proof.Machine

/-- Settles O21: the accept step, the answer to the write, the answer to the read. -/
theorem readBlockTransaction : Obligations.ReadBlockTransaction := by
  intro addr count bs v s hidle h1 h2 hl hv
  cases hv
  have hdec := decodeRdv_rdblock (addr := addr) h1 h2
  have hexec : exec (.rdblock addr count) s =
      .next (requested (rdvWord 0x13 addr count) (rdblockWrite addr count) s) := by
    rw [exec_rdv s (decodeRdv_isRdv _ _ hdec).2 rfl, rdvIssue_ready _ _ _ hidle.1 hidle.2]
    rfl
  refine ⟨_, _, hexec, runSteps_two
    (step_rdblock_written (addr := addr) (count := count) (before := s.bus.trace) rfl rfl rfl rfl hdec)
    (step_rdblock_read (addr := addr) (count := count) (before := s.bus.trace ++ [.write (rdblockWrite addr count)])
      rfl rfl rfl (by simp) rfl hdec hl), ?_, storeBlock_getElem bs s.rdv.buf, rfl, rfl, rfl⟩
  exact List.append_assoc ..

end Sys2Proof.Claims
end

section
/-! # The Surface: the index on its port, the form of the pixel store, and the stops at an undefined access -/

namespace Sys2Proof.Machine

/-! ### How far an accepted command reaches (R42)

The operand fields bound every coordinate by themselves, so a command accepted on some Surface is accepted on a Surface of fixed
size too, and `drawSequence_onSurface` on that one gives the bound. -/

/-- The dimensions `w` by `h` in place of the latched ones. -/
def Ras.withDims (r : Ras) (w h : Word) : Ras := { r with lw := w, lh := h }

/-- Corners on any Surface are on every Surface with all the columns and rows that a field can name (R58, R82, R126). -/
theorem cornersFault_none_of_large {r : Ras} {w h : Word} {x1 y1 x2 y2 : Field16} (hw : 32768 ≤ w.toNat)
    (hh : 32768 ≤ h.toNat) (hf : (if cornersOnSurface r.lw r.lh (signed x1) (signed y1) (signed x2) (signed y2) then none
      else some FaultCode.outOfBounds) = none) :
    (if cornersOnSurface w h (signed x1) (signed y1) (signed x2) (signed y2) then none
      else some FaultCode.outOfBounds) = none := by
  obtain ⟨⟨hx1, -, hy1, -⟩, hx2, -, hy2, -⟩ := cornersFault_none.1 hf
  have rx1 := signed_range x1
  have ry1 := signed_range y1
  have rx2 := signed_range x2
  have ry2 := signed_range y2
  exact cornersFault_none.2 ⟨⟨hx1, by omega, hy1, by omega⟩, hx2, by omega, hy2, by omega⟩

/-- An extent that starts on the Surface is at most the centre, so it reaches no further than column and row `2 * 32767`
(R98, R114). -/
theorem extentOnSurface_of_large {r : Ras} {w h : Word} {cx cy : Field16} {ex ey : Int} (hw : 65535 ≤ w.toNat)
    (hh : 65535 ≤ h.toNat) (hf : extentOnSurface r.lw r.lh (signed cx) (signed cy) ex ey = true) :
    extentOnSurface w h (signed cx) (signed cy) ex ey = true := by
  obtain ⟨hx, -, hy, -⟩ := (extentOnSurface_iff ..).1 hf
  have rx := signed_range cx
  have ry := signed_range cy
  exact (extentOnSurface_iff ..).2 ⟨hx, by omega, hy, by omega⟩

theorem circleFault_none_of_large {r : Ras} {w h : Word} {cx cy radius : Field16} (hw : 65535 ≤ w.toNat)
    (hh : 65535 ≤ h.toNat) (hf : circleFault r (signed cx) (signed cy) (signed radius) = none) :
    circleFault (r.withDims w h) (signed cx) (signed cy) (signed radius) = none := by
  obtain ⟨hr, hext⟩ := circleFault_none.1 hf
  exact circleFault_none.2 ⟨hr, extentOnSurface_of_large hw hh hext⟩

theorem ellipseFault_none_of_large {r : Ras} {w h : Word} {cx cy rx ry : Field16} (hw : 65535 ≤ w.toNat)
    (hh : 65535 ≤ h.toNat) (hf : ellipseFault r (signed cx) (signed cy) (signed rx) (signed ry) = none) :
    ellipseFault (r.withDims w h) (signed cx) (signed cy) (signed rx) (signed ry) = none := by
  obtain ⟨hr, hext⟩ := ellipseFault_none.1 hf
  exact ellipseFault_none.2 ⟨hr, extentOnSurface_of_large hw hh hext⟩

/-- A command accepted on any Surface is accepted on every Surface of at least 65535 columns and rows. -/
theorem drawFault_none_of_large {i : Instr} {r : Ras} {w h : Word} (hw : 65535 ≤ w.toNat) (hh : 65535 ≤ h.toNat)
    (hf : drawFault r i = none) : drawFault (r.withDims w h) i = none := by
  have hw' : 32768 ≤ w.toNat := by omega
  have hh' : 32768 ≤ h.toNat := by omega
  cases i
  case line => exact cornersFault_none_of_large hw' hh' hf
  case circle => exact circleFault_none_of_large hw hh hf
  case circleF => exact circleFault_none_of_large hw hh hf
  case ellipse => exact ellipseFault_none_of_large hw hh hf
  case ellipseF => exact ellipseFault_none_of_large hw hh hf
  case rect => exact cornersFault_none_of_large hw' hh' hf
  case rectF => exact cornersFault_none_of_large hw' hh' hf
  all_goals rfl

/-- Is the command given by two corners: `LINE`, `RECT` or `RECT.F`? -/
def byCorners (i : Instr) : Prop :=
  ∃ x1 y1 x2 y2 color, i = .line x1 y1 x2 y2 color ∨ i = .rect x1 y1 x2 y2 color ∨ i = .rectF x1 y1 x2 y2 color

/-- A command by corners that is accepted on any Surface is accepted on every Surface of at least 32768 columns and rows. -/
theorem drawFault_none_of_byCorners {i : Instr} {r : Ras} {w h : Word} (hi : byCorners i) (hw : 32768 ≤ w.toNat)
    (hh : 32768 ≤ h.toNat) (hf : drawFault r i = none) : drawFault (r.withDims w h) i = none := by
  obtain ⟨x1, y1, x2, y2, color, rfl | rfl | rfl⟩ := hi
  all_goals exact cornersFault_none_of_large hw hh hf

/-- R42: no pixel of an accepted command lies past column or row 65534. -/
theorem drawSequence_le {i : Instr} {seq : List Pixel} {r : Ras} (hs : drawSequence i = some seq)
    (hf : drawFault r i = none) {p : Pixel} (hp : p ∈ seq) : p.x ≤ 65534 ∧ p.y ≤ 65534 := by
  have hlarge := drawFault_none_of_large (w := 65535) (h := 65535) (by decide) (by decide) hf
  obtain ⟨-, hx, -, hy⟩ := (onSurface_iff ..).1 (drawSequence_onSurface hs hlarge p hp)
  exact ⟨Int.le_of_lt_add_one hx, Int.le_of_lt_add_one hy⟩

/-- R42: no pixel of an accepted command by corners lies past column or row 32767. -/
theorem drawSequence_le_of_byCorners {i : Instr} {seq : List Pixel} {r : Ras} (hi : byCorners i)
    (hs : drawSequence i = some seq) (hf : drawFault r i = none) {p : Pixel} (hp : p ∈ seq) :
    p.x ≤ 32767 ∧ p.y ≤ 32767 := by
  have hlarge := drawFault_none_of_byCorners (w := 32768) (h := 32768) hi (by decide) (by decide) hf
  obtain ⟨-, hx, -, hy⟩ := (onSurface_iff ..).1 (drawSequence_onSurface hs hlarge p hp)
  exact ⟨Int.le_of_lt_add_one hx, Int.le_of_lt_add_one hy⟩

/-- The index of a pixel in the first `n` rows of a Surface (R41): a row has fewer than `2^32` pixels. -/
theorem index_lt_of_row_lt {lw : Word} {p : Pixel} {n : Int} (hx : p.x < (lw.toNat : Int)) (hy0 : 0 ≤ p.y)
    (hy : p.y < n) : p.x + p.y * (lw.toNat : Int) < n * 2 ^ 32 := by
  have hlw : (lw.toNat : Int) ≤ 2 ^ 32 := by exact_mod_cast lw.isLt.le
  calc p.x + p.y * (lw.toNat : Int) < (p.y + 1) * lw.toNat := by linarith
    _ ≤ n * lw.toNat := Int.mul_le_mul_of_nonneg_right hy (by positivity)
    _ ≤ n * 2 ^ 32 := Int.mul_le_mul_of_nonneg_left hlw (by omega)

/-! ### The form of the pixel store -/

/-- The two writers of the Surface, the engine and another agent, keep the form (R22, R49). -/
theorem RasMove.surface_wf {r r' : Ras} {sf sf' : Surface} {e : Event} (h : RasMove r sf e r' sf')
    (hsf : sf.wf = true) : sf'.wf = true := by
  cases h with
  | pixel => exact write_wf _ _ _ hsf
  | other => exact write_wf _ _ _ hsf
  | _ => exact hsf

/-! ### The stops -/

theorem pixelStep_outsideStore {p : Pixel} {s : State} (h1 : onSurface s.ras.lw s.ras.lh p.x p.y = true)
    (h2 : s.surface.size ≤ (pixelIndex s.ras.lw p).toNat) : pixelStep p s = .fault .pixelOutsideStore := by
  rw [pixelStep, if_neg (by simp [h1]), if_pos h2]

theorem otherSurfaceWrite_busy {s : State} (idx : Nat) (v : Color) (hb : s.ras.busy = true) :
    otherSurfaceWrite idx v s = .refused .concurrentSurfaceWriter := if_pos hb

end Sys2Proof.Machine

namespace Sys2Proof.Claims

open Sys2Proof.Machine

/-- Settles O55, by the moves of the RAS side. -/
theorem stepKeepsThePixelStoreCanonical : Obligations.StepKeepsThePixelStoreCanonical := fun _ _ hs h =>
  (step_rasMove h).surface_wf hs

/-- Settles O60: the pixel is on the latched Surface, in one of its first 65535 rows, or of its first 32768. -/
theorem pixelIndexFitsItsPort : Obligations.PixelIndexFitsItsPort := by
  intro i seq r hs hf p hp
  obtain ⟨hx0, hx, hy0, hy⟩ := (onSurface_iff ..).1 (drawSequence_onSurface hs hf p hp)
  have hnonneg : 0 ≤ p.x + p.y * (r.lw.toNat : Int) := by positivity
  have h48 : p.x + p.y * (r.lw.toNat : Int) < 2 ^ 48 :=
    index_lt_of_row_lt (n := 2 ^ 16) hx hy0 (by have := (drawSequence_le hs hf hp).2; omega)
  have hidx : (pixelIndex r.lw p).toNat = (p.x + p.y * (r.lw.toNat : Int)).toNat := pixelIndex_toNat _ _ hnonneg h48
  refine ⟨hnonneg, h48, by rw [hidx, Int.toNat_of_nonneg hnonneg], fun hsmall => ?_⟩
  have hle : p.x ≤ 32767 ∧ p.y ≤ 32767 := by
    rcases hsmall with hi | ⟨hw, hh⟩
    · exact drawSequence_le_of_byCorners hi hs hf hp
    · omega
  exact ⟨hx0, hle.1, hy0, hle.2, index_lt_of_row_lt (n := 2 ^ 15) hx hy0 (by omega)⟩

/-- Settles O31, by the two stops. -/
theorem undefinedSurfaceAccessesStop : Obligations.UndefinedSurfaceAccessesStop := by
  refine ⟨fun s p rest hs hb hp hon hout => ?_, fun s idx v rest hs hb => ?_⟩
  · rw [step_cons hs]
    exact (rasTurn_pixel (s := { s with script := rest }) hb hp).trans (pixelStep_outsideStore hon hout)
  · rw [step_cons hs]
    exact otherSurfaceWrite_busy (s := { s with script := rest }) idx v hb

end Sys2Proof.Claims
end

section
/-! # Command words and instructions

The decoder by its equations, one for each opcode, and the facts about legal words that follow from them. -/

namespace Sys2Proof

/-! ### The decoder of RAS words, by opcode (R57, R59) -/

section Ras
variable {c : RasWord}

theorem decodeRas_op1 (hr : c.rsv = 0) (ho : c.op = 0x01) : decodeRas c =
    if c.filled then .error .filledFlag else .ok (.line c.fieldA c.fieldB c.fieldC c.fieldD c.color) := by
  simp [decodeRas, hr, ho]

theorem decodeRas_op2 (hr : c.rsv = 0) (ho : c.op = 0x02) : decodeRas c =
    if c.filled then .ok (.circleF c.fieldA c.fieldB c.fieldC c.fieldD c.color)
    else .ok (.circle c.fieldA c.fieldB c.fieldC c.fieldD c.color) := by
  simp [decodeRas, hr, ho]

theorem decodeRas_op3 (hr : c.rsv = 0) (ho : c.op = 0x03) : decodeRas c =
    if c.filled then .ok (.ellipseF c.fieldA c.fieldB c.fieldC c.fieldD c.color)
    else .ok (.ellipse c.fieldA c.fieldB c.fieldC c.fieldD c.color) := by
  simp [decodeRas, hr, ho]

theorem decodeRas_op4 (hr : c.rsv = 0) (ho : c.op = 0x04) : decodeRas c =
    if c.filled then .ok (.rectF c.fieldA c.fieldB c.fieldC c.fieldD c.color)
    else .ok (.rect c.fieldA c.fieldB c.fieldC c.fieldD c.color) := by
  simp [decodeRas, hr, ho]

theorem decodeRas_op5 (hr : c.rsv = 0) (ho : c.op = 0x05) : decodeRas c =
    if c.filled then .error .filledFlag else .ok (.pack565 c.r8 c.g8 c.b8 c.unused c.color) := by
  simp [decodeRas, hr, ho]

/-- A byte in the range of the RAS opcodes is one of the five. -/
theorem rasOpcode_cases {op : Byte} (h1 : 1 ≤ op.toNat) (h5 : op.toNat ≤ 5) :
    op = 0x01 ∨ op = 0x02 ∨ op = 0x03 ∨ op = 0x04 ∨ op = 0x05 := by
  bv_omega

/-- The encoder sets `rsv` to 0, `op` to 1 to 5, and `F` to 0 for `LINE` and `PACK565` (R57 (a) to (c)). -/
theorem ras_legal_of_encode {i : Instr} (h : encode i = .ras c) :
    c.rsv = 0 ∧ 1 ≤ c.op.toNat ∧ c.op.toNat ≤ 5 ∧ (c.op = 0x01 ∨ c.op = 0x05 → c.filled = false) := by
  cases i <;> cases h <;> simp

/-- R57: which RAS words are legal. -/
theorem decodeRas_ok_iff : (∃ i, decodeRas c = .ok i) ↔
    c.rsv = 0 ∧ 1 ≤ c.op.toNat ∧ c.op.toNat ≤ 5 ∧ (c.op = 0x01 ∨ c.op = 0x05 → c.filled = false) := by
  constructor
  · rintro ⟨i, hi⟩
    exact ras_legal_of_encode (Machine.encode_of_decodeRas hi)
  · rintro ⟨hr, h1, h5, hf⟩
    rcases rasOpcode_cases h1 h5 with ho | ho | ho | ho | ho
    · exact ⟨_, (decodeRas_op1 hr ho).trans (if_neg (by simp [hf (.inl ho)]))⟩
    · rw [decodeRas_op2 hr ho]
      split <;> exact ⟨_, rfl⟩
    · rw [decodeRas_op3 hr ho]
      split <;> exact ⟨_, rfl⟩
    · rw [decodeRas_op4 hr ho]
      split <;> exact ⟨_, rfl⟩
    · exact ⟨_, (decodeRas_op5 hr ho).trans (if_neg (by simp [hf (.inr ho)]))⟩

end Ras

/-! ### `C[15:0]` holds all that decides whether a RAS word is legal (R57) -/

theorem ras_head_op (c : RasWord) : c.op = (c.extractLsb' 0 16).extractLsb' 0 8 := by simp [RasWord.op]

theorem ras_head_filled (c : RasWord) : c.filled = (c.extractLsb' 0 16).getLsbD 8 := by simp [RasWord.filled]

theorem ras_head_rsv (c : RasWord) : c.rsv = (c.extractLsb' 0 16).extractLsb' 9 7 := by simp [RasWord.rsv]

/-- Whether a word is legal depends on `C[15:0]` alone. -/
theorem decodeRas_ok_congr {c c' : RasWord} (h : c.extractLsb' 0 16 = c'.extractLsb' 0 16) :
    (∃ i, decodeRas c = .ok i) ↔ ∃ i, decodeRas c' = .ok i := by
  have hop : c.op = c'.op := by rw [ras_head_op, h, ← ras_head_op]
  have hfilled : c.filled = c'.filled := by rw [ras_head_filled, h, ← ras_head_filled]
  have hrsv : c.rsv = c'.rsv := by rw [ras_head_rsv, h, ← ras_head_rsv]
  rw [decodeRas_ok_iff, decodeRas_ok_iff, hop, hfilled, hrsv]

/-! ### The decoder of RDV words, by opcode (R62) -/

section Rdv
variable {v : Word}

theorem decodeRdv_op10 (hr : rdvRsv v = 0) (ho : rdvOp v = 0x10) :
    decodeRdv v = .ok (.rdbyte (rdvAddr v) (rdvOpd v)) := by
  simp [decodeRdv, hr, ho]

theorem decodeRdv_op11 (hr : rdvRsv v = 0) (ho : rdvOp v = 0x11) :
    decodeRdv v = .ok (.wrbyte (rdvAddr v) (rdvOpd v)) := by
  simp [decodeRdv, hr, ho]

theorem decodeRdv_op12 (hr : rdvRsv v = 0) (ho : rdvOp v = 0x12) :
    decodeRdv v = .ok (.rdpair (rdvAddr v) (rdvOpd v)) := by
  simp [decodeRdv, hr, ho]

theorem decodeRdv_op13 (hr : rdvRsv v = 0) (ho : rdvOp v = 0x13)
    (hn : 1 ≤ (rdvOpd v).toNat ∧ (rdvOpd v).toNat ≤ Config.blockMax) :
    decodeRdv v = .ok (.rdblock (rdvAddr v) (rdvOpd v)) := by
  simp [decodeRdv, hr, ho, hn]

/-- A byte in the range of the RDV opcodes is one of the four. -/
theorem rdvOpcode_cases {op : Byte} (h1 : 0x10 ≤ op.toNat) (h4 : op.toNat ≤ 0x13) :
    op = 0x10 ∨ op = 0x11 ∨ op = 0x12 ∨ op = 0x13 := by
  bv_omega

theorem rdblock_wellFormed_iff {addr count : Byte} :
    (Instr.rdblock addr count).wellFormed = true ↔ 1 ≤ count.toNat ∧ count.toNat ≤ Config.blockMax := by
  simp [Instr.wellFormed]

/-- The encoder sets `rsv` to 0, `op` to 0x10 to 0x13, and `count` in its range (R62). -/
theorem rdv_legal_of_encode {i : Instr} (hw : i.wellFormed = true) (h : encode i = .rdv v) :
    rdvRsv v = 0 ∧ 0x10 ≤ (rdvOp v).toNat ∧ (rdvOp v).toNat ≤ 0x13 ∧
      (rdvOp v = 0x13 → 1 ≤ (rdvOpd v).toNat ∧ (rdvOpd v).toNat ≤ Config.blockMax) := by
  cases i <;> cases h
  case rdblock => simpa using rdblock_wellFormed_iff.1 hw
  all_goals simp

/-- R62: which RDV words are legal. -/
theorem decodeRdv_ok_iff : (∃ i, decodeRdv v = .ok i) ↔
    rdvRsv v = 0 ∧ 0x10 ≤ (rdvOp v).toNat ∧ (rdvOp v).toNat ≤ 0x13 ∧
      (rdvOp v = 0x13 → 1 ≤ (rdvOpd v).toNat ∧ (rdvOpd v).toNat ≤ Config.blockMax) := by
  constructor
  · rintro ⟨i, hi⟩
    exact rdv_legal_of_encode (decodeRdv_isRdv v i hi).2 (Machine.encode_of_decodeRdv hi)
  · rintro ⟨hr, h1, h4, hn⟩
    rcases rdvOpcode_cases h1 h4 with ho | ho | ho | ho
    · exact ⟨_, decodeRdv_op10 hr ho⟩
    · exact ⟨_, decodeRdv_op11 hr ho⟩
    · exact ⟨_, decodeRdv_op12 hr ho⟩
    · exact ⟨_, decodeRdv_op13 hr ho (hn ho)⟩

/-- The mask 0xFF0000FF of the opcode map keeps `rsv` and `op` (R62). -/
theorem rdv_fields_of_mask {op : Byte} (h : v &&& 0xFF0000FF = rdvWord op 0 0) : rdvRsv v = 0 ∧ rdvOp v = op := by
  have hr : rdvRsv (v &&& 0xFF0000FF) = rdvRsv v := by
    rw [rdvRsv, BitVec.extractLsb'_and]
    exact BitVec.and_allOnes
  have ho : rdvOp (v &&& 0xFF0000FF) = rdvOp v := by
    rw [rdvOp, BitVec.extractLsb'_and]
    exact BitVec.and_allOnes
  exact ⟨by rw [← hr, h, rdvWord_rsv], by rw [← ho, h, rdvWord_op]⟩

end Rdv

/-! ### Instructions and the unit of their word -/

theorem wellFormed_of_isRas {i : Instr} (h : i.isRas = true) : i.wellFormed = true := by
  cases i with
  | rdblock => cases h
  | _ => rfl

theorem isRas_of_encode {i : Instr} {c : RasWord} (h : encode i = .ras c) : i.isRas = true := by
  by_contra hi
  obtain ⟨v, hv⟩ := Machine.encode_of_not_isRas (Bool.eq_false_iff.2 hi)
  cases h.symm.trans hv

/-- The round trip from the instruction (R56, R59, R61, R62). -/
theorem decode_encode {i : Instr} (h : i.wellFormed = true) : decode (encode i) = .ok i := by
  cases i with
  | line => exact (decodeRas_op1 (rasWord_rsv ..) (rasWord_op ..)).trans (by simp)
  | circle | circleF => exact (decodeRas_op2 (rasWord_rsv ..) (rasWord_op ..)).trans (by simp)
  | ellipse | ellipseF => exact (decodeRas_op3 (rasWord_rsv ..) (rasWord_op ..)).trans (by simp)
  | rect | rectF => exact (decodeRas_op4 (rasWord_rsv ..) (rasWord_op ..)).trans (by simp)
  | pack565 => exact (decodeRas_op5 (packWord_rsv ..) (packWord_op ..)).trans (by simp)
  | rdbyte => exact (decodeRdv_op10 (rdvWord_rsv ..) (rdvWord_op ..)).trans (by simp)
  | wrbyte => exact (decodeRdv_op11 (rdvWord_rsv ..) (rdvWord_op ..)).trans (by simp)
  | rdpair => exact (decodeRdv_op12 (rdvWord_rsv ..) (rdvWord_op ..)).trans (by simp)
  | rdblock =>
    exact (decodeRdv_op13 (rdvWord_rsv ..) (rdvWord_op ..) (by simpa using rdblock_wellFormed_iff.1 h)).trans (by simp)

theorem decodeRas_of_encode {i : Instr} {c : RasWord} (h : encode i = .ras c) : decodeRas c = .ok i :=
  (congrArg decode h).symm.trans (decode_encode (wellFormed_of_isRas (isRas_of_encode h)))

theorem decodeRdv_of_encode {i : Instr} {v : Word} (hw : i.wellFormed = true) (h : encode i = .rdv v) :
    decodeRdv v = .ok i :=
  (congrArg decode h).symm.trans (decode_encode hw)

end Sys2Proof

namespace Sys2Proof.Machine

/-! ### Words that are not legal (R171) -/

theorem rasCommand_illegal {v : Word} {s : State} (h : ∀ i, decodeRas (rasWordOf s.ras.arg1 s.ras.arg0 v) ≠ .ok i) :
    rasCommand v s = rasIllegal (rasWordOf s.ras.arg1 s.ras.arg0 v) s := by
  unfold rasCommand
  split
  next i hi => exact absurd hi (h i)
  next => rfl

theorem rdvCommand_illegal {v : Word} {s : State} (h : ∀ i, decodeRdv v ≠ .ok i) : rdvCommand v s = rdvIllegal v s := by
  unfold rdvCommand
  split
  next i hi => exact absurd hi (h i)
  next => rfl

/-! ### The writes of an assembler line (R64) -/

theorem runSteps_succ {n : Nat} {s t : State} (h : step s = .next t) : runSteps (n + 1) s = runSteps n t := by
  simp only [runSteps, h]

theorem runSteps_one (s : State) : runSteps 1 s = step s := by
  unfold runSteps
  cases step s <;> rfl

theorem step_write_arg0 {s : State} {v : Word} {rest : List Event} (h : s.script = .hostWrite .ras 6#4 v :: rest) :
    step s = .next { s with ras := { s.ras with arg0 := v }, script := rest } := by
  rw [step_cons h, perform_write_arg0]

theorem step_write_arg1 {s : State} {v : Word} {rest : List Event} (h : s.script = .hostWrite .ras 7#4 v :: rest) :
    step s = .next { s with ras := { s.ras with arg1 := v }, script := rest } := by
  rw [step_cons h, perform_write_arg1]

/-- The write of `RAS_CMD` with the operand registers loaded from the word runs the instruction (R55, R64). -/
theorem step_write_rasCmd_loaded {c : RasWord} {i : Instr} {s : State} {rest : List Event} (hi : decodeRas c = .ok i)
    (h0 : s.ras.arg0 = c.arg0) (h1 : s.ras.arg1 = c.arg1) (hs : s.script = .hostWrite .ras 8#4 c.cmdValue :: rest) :
    step s = exec i { s with script := rest } := by
  rw [step_cons hs, perform_write_rasCmd]
  exact rasCommand_legal (by rw [h0, h1, rasWordOf_parts, hi])

end Sys2Proof.Machine

namespace Sys2Proof.Claims

open Sys2Proof.Machine

/-- Settles O1: every row by the equation of its opcode. -/
theorem decodeInvertsEncode : Obligations.DecodeInvertsEncode := fun _ h => decode_encode h

/-- Settles O2, by the words of each unit. -/
theorem encodeInvertsDecode : Obligations.EncodeInvertsDecode := by
  intro w i h
  cases w with
  | ras c => exact ⟨encode_of_decodeRas h, wellFormed_of_isRas (decodeRas_isRas c i h)⟩
  | rdv v => exact ⟨encode_of_decodeRdv h, (decodeRdv_isRdv v i h).2⟩

/-- Settles O3: the legal words by opcode; the accept step of an idle unit takes the fault. -/
theorem rasWordLegality : Obligations.RasWordLegality := by
  refine ⟨fun _ => decodeRas_ok_iff, fun _ _ => decodeRas_ok_congr, fun s v rest hidle hs hill => ?_⟩
  rw [step_cons hs, perform_write_rasCmd, rasCommand_illegal (s := { s with script := rest }) hill]
  exact rasAccept_ready _ _ _ hidle.1 hidle.2

/-- Settles O4: the opcode map by the two fields that the mask keeps; the accept step of an idle unit takes the fault. -/
theorem rdvWordLegality : Obligations.RdvWordLegality := by
  refine ⟨fun _ => decodeRdv_ok_iff, fun v => ⟨fun h => ?_, fun h => ?_, fun h => ?_, fun h h1 h32 => ?_⟩,
    fun s v rest hidle hs hill => ?_⟩
  · obtain ⟨hr, ho⟩ := rdv_fields_of_mask (op := 0x10) h
    exact decodeRdv_op10 hr ho
  · obtain ⟨hr, ho⟩ := rdv_fields_of_mask (op := 0x11) h
    exact decodeRdv_op11 hr ho
  · obtain ⟨hr, ho⟩ := rdv_fields_of_mask (op := 0x12) h
    exact decodeRdv_op12 hr ho
  · obtain ⟨hr, ho⟩ := rdv_fields_of_mask (op := 0x13) h
    exact decodeRdv_op13 hr ho ⟨h1, h32⟩
  · rw [step_cons hs, perform_write_rdvCmd, rdvCommand_illegal hill]
    exact rdvIllegal_ready _ _ hidle.1 hidle.2

/-- Settles O7: the operand registers are loaded, then the word that they form is the instruction's. -/
theorem issuedLineRunsItsInstruction : Obligations.IssuedLineRunsItsInstruction := by
  refine ⟨fun i c s rest hc hs => ?_, fun i v s rest hw hv hs => ?_⟩
  · rw [runSteps_succ (step_write_arg0 hs), runSteps_succ (step_write_arg1 rfl), runSteps_one]
    exact step_write_rasCmd_loaded (decodeRas_of_encode hc) rfl rfl rfl
  · rw [runSteps_one, step_cons hs, perform_write_rdvCmd]
    exact rdvCommand_legal (decodeRdv_of_encode hw hv)

/-- Settles O5: closed words. -/
theorem writtenOutWordsDecode : Obligations.WrittenOutWordsDecode := by
  unfold Obligations.WrittenOutWordsDecode
  decide

end Sys2Proof.Claims
end

section
/-! # Where the packed colour keeps each channel (R71, R72) -/

namespace Sys2Proof.Machine

/-- The high bits of a vector, all of them from bit `s` up, are its value with the low `s` bits divided away. -/
theorem toNat_extract_top {w s k : Nat} (x : BitVec w) (h : s + k = w) : (x.extractLsb' s k).toNat = x.toNat / 2 ^ s := by
  have hx : x.toNat < 2 ^ s * 2 ^ k := by rw [← Nat.pow_add, h]; exact x.isLt
  rw [BitVec.extractLsb'_toNat, Nat.shiftRight_eq_div_pow, Nat.mod_eq_of_lt (Nat.div_lt_of_lt_mul hx)]

/-- The packed colour is the high bits of the three channels side by side, red on top (R71). -/
theorem pack565_eq_append (r8 g8 b8 : Byte) :
    pack565 r8 g8 b8 = r8.extractLsb' 3 5 ++ g8.extractLsb' 2 6 ++ b8.extractLsb' 3 5 := by
  apply BitVec.eq_of_toNat_eq
  rw [pack565_toNat, BitVec.toNat_append, BitVec.toNat_append, ← Nat.shiftLeft_add_eq_or_of_lt (BitVec.isLt _),
    ← Nat.shiftLeft_add_eq_or_of_lt (BitVec.isLt _), toNat_extract_top r8 rfl, toNat_extract_top g8 rfl,
    toNat_extract_top b8 rfl, Nat.shiftLeft_eq, Nat.shiftLeft_eq]
  omega

theorem pack565_red (r8 g8 b8 : Byte) : (pack565 r8 g8 b8).extractLsb' 11 5 = r8.extractLsb' 3 5 := by
  rw [pack565_eq_append]
  exact (extract_high (s := 6) _ _).trans ((extract_high (s := 0) _ _).trans (extract_all _))

theorem pack565_green (r8 g8 b8 : Byte) : (pack565 r8 g8 b8).extractLsb' 5 6 = g8.extractLsb' 2 6 := by
  rw [pack565_eq_append]
  exact (extract_high (s := 0) _ _).trans (extract_low _ _)

theorem pack565_blue (r8 g8 b8 : Byte) : (pack565 r8 g8 b8).extractLsb' 0 5 = b8.extractLsb' 3 5 := by
  rw [pack565_eq_append]
  exact extract_low _ _

end Sys2Proof.Machine

namespace Sys2Proof.Claims

open Sys2Proof.Machine

/-- Settles O16: the fields of the three parts side by side; the colour identities are closed values. -/
theorem packTruncates : Obligations.PackTruncates :=
  ⟨fun r8 g8 b8 => ⟨pack565_red r8 g8 b8, pack565_green r8 g8 b8, pack565_blue r8 g8 b8, pack565_toNat r8 g8 b8⟩,
    by decide⟩

end Sys2Proof.Claims
end

section
/-! # The line as a path between its ends (R77 to R80) -/

namespace Sys2Proof.Machine

/-! ### The closed form of the walk (R78) -/

/-- How far from its start the walk is on the cross axis after `i` steps: `floor((2*i*d + f - 1)/(2*f))` for the fast extent `f`
and the cross extent `d` (R78). -/
def crossSteps (f d i : Nat) : Nat := (2 * i * d + f - 1) / (2 * f)

@[simp] theorem crossSteps_zero (f d : Nat) : crossSteps f d 0 = 0 := by
  rcases Nat.eq_zero_or_pos f with rfl | hf
  · simp [crossSteps]
  · exact Nat.div_eq_of_lt (by omega)

/-- The walk ends at the cross coordinate of the other end. -/
theorem crossSteps_self {f d : Nat} (hd : d ≤ f) : crossSteps f d f = d := by
  rcases Nat.eq_zero_or_pos f with rfl | hf
  · rw [crossSteps_zero, Nat.le_zero.1 hd]
  · have : 2 * f * d + f - 1 = f - 1 + 2 * f * d := by omega
    rw [crossSteps, this, Nat.add_mul_div_left _ _ (by omega), Nat.div_eq_of_lt (by omega), zero_add]

/-- The sign of the decision variable says whether the closed form goes up by one or stays. -/
theorem crossSteps_succ {f d : Nat} (k : Nat) (hf : 0 < f) (hd : d ≤ f) :
    crossSteps f d (k + 1) = crossSteps f d k +
      if 2 * d * (k + 1 : Int) - f - 2 * f * crossSteps f d k > 0 then 1 else 0 := by
  have hlo : 2 * f * crossSteps f d k ≤ 2 * k * d + f - 1 := Nat.mul_div_le _ _
  have hhi : 2 * k * d + f - 1 < 2 * f * (crossSteps f d k + 1) := Nat.lt_mul_div_succ _ (by omega)
  generalize crossSteps f d k = q at hlo hhi ⊢
  unfold crossSteps
  split <;> refine Nat.div_eq_of_lt_le ?_ ?_ <;> grind

/-- The loop of R77 after `k` steps from `(x, y)`: the decision variable is the one of R78, and the closed form is emitted. -/
theorem lineWalk_eq_map {steep : Bool} {f d : Nat} {ystep x y : Int} (hf : 0 < f) (hd : d ≤ f) (n k : Nat) {a b delta : Int}
    (ha : a = x + k) (hb : b = y + ystep * crossSteps f d k)
    (hdelta : delta = 2 * d * (k + 1 : Int) - f - 2 * f * crossSteps f d k) :
    lineWalk steep f d ystep n a b delta =
      (List.range' (k + 1) n).map fun i : Nat => lineEmit steep (x + i) (y + ystep * crossSteps f d i) := by
  induction n generalizing k a b delta with
  | zero => rfl
  | succ n ih =>
    have hstep := crossSteps_succ k hf hd
    rw [← hdelta] at hstep
    have ha' : a + 1 = x + (k + 1 : Nat) := by push_cast; omega
    have hb' : (if delta > 0 then b + ystep else b) = y + ystep * crossSteps f d (k + 1) := by
      rw [hstep, hb]
      split <;> push_cast <;> ring
    have hdelta' : (if delta > 0 then delta + 2 * ((d : Int) - f) else delta + 2 * d) =
        2 * d * ((k + 1 : Nat) + 1 : Int) - f - 2 * f * crossSteps f d (k + 1) := by
      rw [hstep]
      split <;> rw [hdelta] <;> push_cast <;> ring
    rw [List.range'_succ, List.map_cons, lineWalk, ih (k + 1) ha' hb' hdelta', ha', hb']

/-- The line in the order in which the walk takes its ends, `f` and `d` its extents (R78). -/
theorem lineFrom_eq_map {steep : Bool} {x1 y1 x2 y2 : Int} {f d : Nat} (hx : x1 ≤ x2) (hd : d ≤ f) :
    lineFrom steep f d x1 y1 x2 y2 =
      (List.range (f + 1)).map fun i : Nat => lineEmit steep (x1 + i) (y1 + (y2 - y1).sign * crossSteps f d i) := by
  simp only [lineFrom, if_neg (not_lt.2 hx), gt_iff_lt, Int.toNat_natCast]
  rw [List.range_eq_range', List.range'_succ, List.map_cons]
  rcases Nat.eq_zero_or_pos f with rfl | hf
  · simp [lineWalk]
  · rw [lineWalk_eq_map (x := x1) (y := y1) hf hd f 0 (by simp) (by simp) (by simp)]
    simp

/-! ### The two directions (R80 (d)) and the ends (R80 (c)) -/

/-- The walk sorts the ends itself. Ends of one fast-axis coordinate must be one point, which they are when the fast extent
is the greater one. -/
theorem lineFrom_comm {steep : Bool} {f d x1 y1 x2 y2 : Int} (h : x1 = x2 → y1 = y2) :
    lineFrom steep f d x1 y1 x2 y2 = lineFrom steep f d x2 y2 x1 y1 := by
  unfold lineFrom
  rcases lt_trichotomy x1 x2 with hx | rfl | hx
  · simp [hx, hx.not_gt]
  · rw [h rfl]
  · simp [hx, hx.not_gt]

/-- The first pixel is the end with the smaller fast-axis coordinate (R80 (e)). -/
theorem head?_lineFrom (steep : Bool) (f d x1 y1 x2 y2 : Int) : (lineFrom steep f d x1 y1 x2 y2).head? =
    some (if x1 ≤ x2 then lineEmit steep x1 y1 else lineEmit steep x2 y2) := by
  by_cases hx : x1 ≤ x2
  · simp [lineFrom, hx, not_lt.2 hx]
  · simp [lineFrom, hx, not_le.1 hx]

theorem extent_comm (a b : Int) : (a - b).natAbs = (b - a).natAbs := by omega

/-- Both ends are on the walk: one is its first pixel, the other its last. -/
theorem ends_mem_lineFrom {steep : Bool} {x1 y1 x2 y2 : Int} (h : (y2 - y1).natAbs ≤ (x2 - x1).natAbs) :
    lineEmit steep x1 y1 ∈ lineFrom steep (x2 - x1).natAbs (y2 - y1).natAbs x1 y1 x2 y2 ∧
    lineEmit steep x2 y2 ∈ lineFrom steep (x2 - x1).natAbs (y2 - y1).natAbs x1 y1 x2 y2 := by
  wlog hx : x1 ≤ x2 generalizing x1 y1 x2 y2
  · rw [lineFrom_comm (by omega), extent_comm x2 x1, extent_comm y2 y1]
    exact (this (by omega) (by omega)).symm
  · simp only [lineFrom_eq_map hx h, List.mem_map, List.mem_range]
    refine ⟨⟨0, Nat.succ_pos _, by simp⟩, (x2 - x1).natAbs, Nat.lt_succ_self _, ?_⟩
    rw [crossSteps_self h, Int.sign_mul_natAbs]
    congr 1 <;> omega

theorem lineWalk_length (steep : Bool) (f d ystep : Int) (n : Nat) (x y delta : Int) :
    (lineWalk steep f d ystep n x y delta).length = n := by
  induction n generalizing x y delta with
  | zero => rfl
  | succ n ih => simp [lineWalk, ih]

theorem lineFrom_length (steep : Bool) (f : Nat) (d x1 y1 x2 y2 : Int) :
    (lineFrom steep f d x1 y1 x2 y2).length = f + 1 := by
  simp [lineFrom, lineWalk_length]

/-! ### Neighbours (R80 (b)) -/

/-- `q` is one step on the fast axis after `p`, and at most one away from it on the cross axis. -/
def lineStep (steep : Bool) (p q : Pixel) : Prop :=
  if steep then q.y = p.y + 1 ∧ (q.x - p.x).natAbs ≤ 1 else q.x = p.x + 1 ∧ (q.y - p.y).natAbs ≤ 1

theorem lineStep_lineEmit {steep : Bool} {x y y' : Int} (h : (y' - y).natAbs ≤ 1) :
    lineStep steep (lineEmit steep x y) (lineEmit steep (x + 1) y') := by
  cases steep <;> exact ⟨rfl, h⟩

/-- Whatever the decisions are, an iteration of the loop takes one step. -/
theorem lineWalk_isChain {steep : Bool} {f d ystep : Int} (hs : ystep.natAbs ≤ 1) (n : Nat) (x y delta : Int) :
    (lineEmit steep x y :: lineWalk steep f d ystep n x y delta).IsChain (lineStep steep) := by
  induction n generalizing x y delta with
  | zero => exact .singleton _
  | succ n ih =>
    refine .cons_cons (lineStep_lineEmit ?_) (ih ..)
    split <;> omega

theorem natAbs_sign_le_one (z : Int) : z.sign.natAbs ≤ 1 := by
  rcases Int.sign_trichotomy z with h | h | h <;> simp [h]

theorem lineFrom_isChain (steep : Bool) (f d x1 y1 x2 y2 : Int) :
    (lineFrom steep f d x1 y1 x2 y2).IsChain (lineStep steep) :=
  lineWalk_isChain (natAbs_sign_le_one _) ..

/-! ### The same for `SEQ_line` -/

section
variable {x1 y1 x2 y2 : Int}

theorem seqLine_of_flat (h : (y2 - y1).natAbs ≤ (x2 - x1).natAbs) :
    seqLine x1 y1 x2 y2 = lineFrom false (x2 - x1).natAbs (y2 - y1).natAbs x1 y1 x2 y2 := by
  exact if_neg (by omega)

theorem seqLine_of_steep (h : (x2 - x1).natAbs < (y2 - y1).natAbs) :
    seqLine x1 y1 x2 y2 = lineFrom true (y2 - y1).natAbs (x2 - x1).natAbs y1 x1 y2 x2 := by
  exact if_pos (by omega)

/-- R80 (a). -/
theorem seqLine_length (x1 y1 x2 y2 : Int) :
    (seqLine x1 y1 x2 y2).length = max (x2 - x1).natAbs (y2 - y1).natAbs + 1 := by
  rcases le_or_gt (y2 - y1).natAbs (x2 - x1).natAbs with h | h
  · rw [seqLine_of_flat h, lineFrom_length, max_eq_left h]
  · rw [seqLine_of_steep h, lineFrom_length, max_eq_right h.le]

/-- R80 (b). -/
theorem seqLine_isChain (x1 y1 x2 y2 : Int) : (seqLine x1 y1 x2 y2).IsChain
    (lineStep (decide ((y2 - y1).natAbs > (x2 - x1).natAbs))) := by
  rcases le_or_gt (y2 - y1).natAbs (x2 - x1).natAbs with h | h
  · rw [seqLine_of_flat h, decide_eq_false h.not_gt]
    exact lineFrom_isChain ..
  · rw [seqLine_of_steep h, decide_eq_true h]
    exact lineFrom_isChain ..

/-- R80 (d). -/
theorem seqLine_comm (x1 y1 x2 y2 : Int) : seqLine x1 y1 x2 y2 = seqLine x2 y2 x1 y1 := by
  rcases le_or_gt (y2 - y1).natAbs (x2 - x1).natAbs with h | h
  · rw [seqLine_of_flat h, seqLine_of_flat (by omega), extent_comm x1 x2, extent_comm y1 y2]
    exact lineFrom_comm (by omega)
  · rw [seqLine_of_steep h, seqLine_of_steep (by omega), extent_comm x1 x2, extent_comm y1 y2]
    exact lineFrom_comm (by omega)

/-- R80 (e). -/
theorem head?_seqLine (x1 y1 x2 y2 : Int) : (seqLine x1 y1 x2 y2).head? = some
    (if (if (y2 - y1).natAbs > (x2 - x1).natAbs then y1 ≤ y2 else x1 ≤ x2) then { x := x1, y := y1 }
      else { x := x2, y := y2 }) := by
  rcases le_or_gt (y2 - y1).natAbs (x2 - x1).natAbs with h | h
  · simp only [seqLine_of_flat h, head?_lineFrom, h.not_gt, if_false]
    rfl
  · simp only [seqLine_of_steep h, head?_lineFrom, h, if_true]
    rfl

/-- R80 (c). -/
theorem ends_mem_seqLine (x1 y1 x2 y2 : Int) :
    { x := x1, y := y1 } ∈ seqLine x1 y1 x2 y2 ∧ { x := x2, y := y2 } ∈ seqLine x1 y1 x2 y2 := by
  rcases le_or_gt (y2 - y1).natAbs (x2 - x1).natAbs with h | h
  · rw [seqLine_of_flat h]
    exact ends_mem_lineFrom h
  · rw [seqLine_of_steep h]
    exact ends_mem_lineFrom h.le

end

end Sys2Proof.Machine

namespace Sys2Proof.Claims

open Sys2Proof.Machine

/-- Settles O39, by the properties (a) to (e) of R80, one lemma each. -/
theorem lineIsAConnectedPathBetweenItsEnds : Obligations.LineIsAConnectedPathBetweenItsEnds := by
  intro x1 y1 x2 y2
  obtain ⟨hstart, hend⟩ := ends_mem_seqLine x1 y1 x2 y2
  refine ⟨seqLine_length .., seqLine_nodup .., fun n p q hp hq => ?_, hstart, hend, fun p => seqLine_inBox,
    seqLine_comm .., head?_seqLine ..⟩
  obtain ⟨hn, rfl⟩ := List.getElem?_eq_some_iff.1 hq
  obtain ⟨-, rfl⟩ := List.getElem?_eq_some_iff.1 hp
  simpa [lineStep] using (seqLine_isChain x1 y1 x2 y2).getElem n hn

/-- Settles O40: the sequence is the list of the closed form's values. -/
theorem lineClosedForm : Obligations.LineClosedForm := by
  refine fun x1 y1 x2 y2 i => ⟨fun hflat hx hi => ?_, fun hsteep hy hi => ?_⟩
  · rw [seqLine_of_flat hflat, lineFrom_eq_map hx.le hflat, List.getElem?_map, List.getElem?_range (by omega)]
    rfl
  · rw [seqLine_of_steep hsteep, lineFrom_eq_map hy.le hsteep.le, List.getElem?_map, List.getElem?_range (by omega)]
    rfl

end Sys2Proof.Claims
end

section
/-! # The bounds checks of the drawing commands are exact (R82, R98, R114, R126) -/

namespace Sys2Proof.Machine

/-! ### A corner off the Surface (R173) -/

theorem cornersFault_outOfBounds {w h : Word} {x1 y1 x2 y2 : Int}
    (hoff : ¬ ((0 ≤ x1 ∧ x1 < (w.toNat : Int) ∧ 0 ≤ y1 ∧ y1 < (h.toNat : Int)) ∧
      (0 ≤ x2 ∧ x2 < (w.toNat : Int) ∧ 0 ≤ y2 ∧ y2 < (h.toNat : Int)))) :
    (if cornersOnSurface w h x1 y1 x2 y2 then none else some FaultCode.outOfBounds) = some .outOfBounds :=
  if_neg fun hc => hoff ((cornersOnSurface_iff ..).1 hc)

/-- The accept step of a drawing command whose precondition fails (R20, R176). -/
theorem exec_faulted {i : Instr} {c : RasWord} {seq : List Pixel} {s : State} {f : FaultCode} (hidle : Claims.rasIdle s)
    (hs : drawSequence i = some seq) (hc : encode i = .ras c) (hf : drawFault (rasLatch c s.ras) i = some f) :
    exec i s = .next (Claims.faulted c f s) := by
  rw [exec_drawing s hs hc, rasAccept_ready _ _ _ hidle.1 hidle.2]
  simp only [drawBody, hf]
  rfl

/-! ### The outermost pixels

A shape given by its corners holds both; a round shape holds its four tips. With them on the Surface, the check passes. -/

/-- The four pixels at distance `ex` left and right and `ey` above and below of the centre are in the sequence. -/
def holdsTips (seq : List Pixel) (cx cy ex ey : Int) : Prop :=
  ({ x := cx - ex, y := cy } ∈ seq ∧ { x := cx + ex, y := cy } ∈ seq) ∧
    { x := cx, y := cy - ey } ∈ seq ∧ { x := cx, y := cy + ey } ∈ seq

theorem cornersFault_none_of_mem {r : Ras} {seq : List Pixel} {x1 y1 x2 y2 : Int}
    (hon : ∀ p ∈ seq, onSurface r.lw r.lh p.x p.y = true)
    (hends : { x := x1, y := y1 } ∈ seq ∧ { x := x2, y := y2 } ∈ seq) :
    (if cornersOnSurface r.lw r.lh x1 y1 x2 y2 then none else some FaultCode.outOfBounds) = none :=
  cornersFault_none.2 ⟨(onSurface_iff ..).1 (hon _ hends.1), (onSurface_iff ..).1 (hon _ hends.2)⟩

theorem extentOnSurface_of_holdsTips {r : Ras} {seq : List Pixel} {cx cy ex ey : Int}
    (hon : ∀ p ∈ seq, onSurface r.lw r.lh p.x p.y = true) (htips : holdsTips seq cx cy ex ey) :
    extentOnSurface r.lw r.lh cx cy ex ey = true := by
  obtain ⟨⟨hleft, hright⟩, hlow, hhigh⟩ := htips
  obtain ⟨h1, -⟩ := (onSurface_iff ..).1 (hon _ hleft)
  obtain ⟨-, h2, -⟩ := (onSurface_iff ..).1 (hon _ hright)
  obtain ⟨-, -, h3, -⟩ := (onSurface_iff ..).1 (hon _ hlow)
  obtain ⟨-, -, -, h4⟩ := (onSurface_iff ..).1 (hon _ hhigh)
  exact (extentOnSurface_iff ..).2 ⟨h1, h2, h3, h4⟩

theorem circleFault_none_of_holdsTips {r : Ras} {seq : List Pixel} {cx cy radius : Int} (h0 : 0 ≤ radius)
    (hon : ∀ p ∈ seq, onSurface r.lw r.lh p.x p.y = true) (htips : holdsTips seq cx cy radius radius) :
    circleFault r cx cy radius = none :=
  circleFault_none.2 ⟨h0, extentOnSurface_of_holdsTips hon htips⟩

theorem ellipseFault_none_of_holdsTips {r : Ras} {seq : List Pixel} {cx cy rx ry : Int} (h0 : 0 ≤ rx ∧ 0 ≤ ry)
    (hon : ∀ p ∈ seq, onSurface r.lw r.lh p.x p.y = true)
    (htips : holdsTips seq cx cy (effectiveExtent rx ry rx) (effectiveExtent rx ry ry)) :
    ellipseFault r cx cy rx ry = none :=
  ellipseFault_none.2 ⟨h0, extentOnSurface_of_holdsTips hon htips⟩

/-- The first and the last row of an outline are written whole (R122). -/
theorem mem_rectOutline_of_row {xa ya xb yb x y : Int} (hx : xa ≤ x ∧ x ≤ xb) (hle : ya ≤ yb) (hy : y = ya ∨ y = yb) :
    { x := x, y := y } ∈ rectOutline xa ya xb yb := by
  have hrow (y' : Int) : { x := x, y := y' } ∈ (span xa xb).map fun x => ({ x := x, y := y' } : Pixel) :=
    List.mem_map.2 ⟨x, mem_span.2 hx, rfl⟩
  refine List.mem_append_left _ (List.mem_append_left _ (List.mem_append.2 ?_))
  by_cases hfirst : y = ya
  · exact .inl (hfirst ▸ hrow y)
  · have hlast : y = yb := hy.resolve_left hfirst
    exact .inr (by rw [if_pos (by omega), ← hlast]; exact hrow y)

/-- R124 (d): the outline holds the two corners that it is given by. -/
theorem corners_mem_seqRect (x1 y1 x2 y2 : Int) :
    { x := x1, y := y1 } ∈ seqRect x1 y1 x2 y2 ∧ { x := x2, y := y2 } ∈ seqRect x1 y1 x2 y2 :=
  ⟨mem_rectOutline_of_row ⟨min_le_left .., le_max_left ..⟩ min_le_max (by omega),
    mem_rectOutline_of_row ⟨min_le_right .., le_max_right ..⟩ min_le_max (by omega)⟩

theorem corners_mem_seqRectFilled (x1 y1 x2 y2 : Int) :
    { x := x1, y := y1 } ∈ seqRectFilled x1 y1 x2 y2 ∧ { x := x2, y := y2 } ∈ seqRectFilled x1 y1 x2 y2 :=
  ⟨mem_seqRectFilled.2 ⟨min_le_left .., le_max_left .., min_le_left .., le_max_left ..⟩,
    mem_seqRectFilled.2 ⟨min_le_right .., le_max_right .., min_le_right .., le_max_right ..⟩⟩

/-! ### The tips of the circle and the disc (R92 to R95) -/

/-- The octant walk starts on the axis (R92). -/
theorem axis_mem_oct {r : Int} (hr : 0 ≤ r) : { x := 0, y := r } ∈ oct r := by
  simp [oct, octWalk, hr]

theorem holdsTips_seqCircle {cx cy r : Int} (hr : 0 ≤ r) : holdsTips (seqCircle cx cy r) cx cy r r := by
  have hmem {q : Pixel} (hq : q ∈ plot8 cx cy { x := 0, y := r }) : q ∈ seqCircle cx cy r :=
    List.mem_flatMap.2 ⟨_, axis_mem_oct hr, hq⟩
  refine ⟨⟨hmem ?_, hmem ?_⟩, hmem ?_, hmem ?_⟩ <;> simp [plot8]

theorem le_rowMax {pts : List Pixel} {p : Pixel} (hp : p ∈ pts) : p.x ≤ rowMax pts p.y := by
  obtain ⟨before, after, rfl⟩ := List.append_of_mem hp
  rw [rowMax, List.foldl_append, List.foldl_cons, if_pos rfl]
  exact le_trans (le_max_right ..) (le_rowMax_foldl ..)

/-- A span fill whose row `0` reaches `rx` holds the tips of its box, as no row is empty (R95, R111). -/
theorem holdsTips_spanFill {cx cy rx ry : Int} {pts : List Pixel} (hx : 0 ≤ rx) (hy : 0 ≤ ry)
    (htip : { x := rx, y := 0 } ∈ pts) : holdsTips (spanFill cx cy ry (rowMax pts)) cx cy rx ry := by
  have hmid : rx ≤ rowMax pts 0 := le_rowMax htip
  have hlow := rowMax_nonneg pts ((cy - ry - cy).natAbs : Int)
  have hhigh := rowMax_nonneg pts ((cy + ry - cy).natAbs : Int)
  refine ⟨⟨mem_spanFill.2 ?_, mem_spanFill.2 ?_⟩, mem_spanFill.2 ?_, mem_spanFill.2 ?_⟩
  · simp only [sub_self, Int.natAbs_zero, Nat.cast_zero]
    omega
  · simp only [sub_self, Int.natAbs_zero, Nat.cast_zero]
    omega
  · simp only
    omega
  · simp only
    omega

theorem holdsTips_seqDisc {cx cy r : Int} (hr : 0 ≤ r) : holdsTips (seqDisc cx cy r) cx cy r r :=
  holdsTips_spanFill hr hr (List.mem_append_right _ (List.mem_map.2 ⟨_, axis_mem_oct hr, rfl⟩))

/-! ### The tips of the ellipses (R107 to R111) -/

/-- Region 1 starts on the `y` axis (R107). -/
theorem axis_mem_quadWalk {rx ry : Int} (hx : 1 ≤ rx) (hy : 1 ≤ ry) : { x := 0, y := ry } ∈ quadWalk rx ry := by
  have htest : ry * ry * 0 < rx * rx * ry := by rw [mul_zero]; positivity
  simp only [quadWalk, region1Fuel, region1, if_pos htest]
  exact List.mem_append_left _ (List.mem_append_left _ List.mem_cons_self)

/-- `n + 1` visits of region 2 go down `n` rows (R107). -/
theorem region2_last_row (a2 b2 : Int) (n : Nat) (x y : Int) :
    ∃ p, (region2 a2 b2 (n + 1) x y).getLast? = some p ∧ p.y = y - n := by
  induction n generalizing x y with
  | zero => exact ⟨_, rfl, (sub_zero y).symm⟩
  | succ n ih =>
    obtain ⟨p, hp, hy⟩ := ih (if ellipseF2 a2 b2 x y ≤ 0 then x + 1 else x) (y - 1)
    refine ⟨p, ?_, by push_cast; omega⟩
    rw [region2, List.getLast?_cons, hp]
    rfl

/-- Region 2 goes down to the `x` axis (R107). -/
theorem lowerWalk_last_row {rx ry : Int} {e : Pixel} (hy0 : 0 ≤ e.y) :
    ∃ p, (lowerWalk rx ry e).getLast? = some p ∧ p.y = 0 := by
  have hrows : (e.y + 1).toNat = e.y.toNat + 1 := by omega
  obtain ⟨p, hp, hy⟩ := region2_last_row (rx * rx) (ry * ry) e.y.toNat e.x e.y
  exact ⟨p, by rw [lowerWalk, hrows, hp], by omega⟩

/-- The walk reaches `rx` on the `x` axis, by the tip completion if not before (R107). -/
theorem tip_mem_quadWalk {rx ry : Int} (hx : 1 ≤ rx) (hy : 1 ≤ ry) : { x := rx, y := 0 } ∈ quadWalk rx ry := by
  obtain ⟨one, hone, hquad⟩ := quadWalk_parts rx ry
  obtain ⟨⟨-, h1, h2, -⟩, -⟩ := region1_bounds hx (region1Fuel rx ry) 0 ry (region1Inv_start hx hy)
  rw [← hone] at h1 h2
  obtain ⟨p, hlast, hpy⟩ := lowerWalk_last_row (rx := rx) (ry := ry) h2
  have hp := List.mem_of_getLast? hlast
  obtain ⟨-, -, hpx, -⟩ := lowerWalk_bounds hx hy h1 h2 hp
  rw [hquad, hlast, Option.getD_some]
  rcases hpx.lt_or_eq with hlt | rfl
  · exact List.mem_append_right _ (List.mem_map.2 ⟨rx, mem_span.2 ⟨hlt, le_refl _⟩, rfl⟩)
  · exact List.mem_append_left _ (List.mem_append_right _ (hpy ▸ hp))

/-- The quadrant walk, degenerate or not, holds the two tips of the effective extents (R107, R108). -/
theorem tips_mem_quad {rx ry : Int} (hx : 0 ≤ rx) (hy : 0 ≤ ry) :
    { x := 0, y := effectiveExtent rx ry ry } ∈ quad rx ry ∧ { x := effectiveExtent rx ry rx, y := 0 } ∈ quad rx ry := by
  unfold quad effectiveExtent
  split
  · simp
  · exact ⟨axis_mem_quadWalk (by omega) (by omega), tip_mem_quadWalk (by omega) (by omega)⟩

theorem holdsTips_seqEllipse {cx cy rx ry : Int} (hx : 0 ≤ rx) (hy : 0 ≤ ry) :
    holdsTips (seqEllipse cx cy rx ry) cx cy (effectiveExtent rx ry rx) (effectiveExtent rx ry ry) := by
  obtain ⟨haxis, htip⟩ := tips_mem_quad hx hy
  have hmem {p q : Pixel} (hp : p ∈ quad rx ry) (hq : q ∈ plot4 cx cy p) : q ∈ seqEllipse cx cy rx ry :=
    List.mem_flatMap.2 ⟨p, hp, hq⟩
  refine ⟨⟨hmem htip ?_, hmem htip ?_⟩, hmem haxis ?_, hmem haxis ?_⟩ <;> simp [plot4]

theorem holdsTips_seqEllipseFilled {cx cy rx ry : Int} (hx : 0 ≤ rx) (hy : 0 ≤ ry) :
    holdsTips (seqEllipseFilled cx cy rx ry) cx cy (effectiveExtent rx ry rx) (effectiveExtent rx ry ry) :=
  holdsTips_spanFill (effectiveExtent_nonneg hx) (effectiveExtent_nonneg hy) (tips_mem_quad hx hy).2

/-! ### The check, for all seven -/

/-- A drawing command whose pixels are all on the Surface passes its check (R82, R98, R114, R126). -/
theorem drawFault_none_of_onSurface {i : Instr} {seq : List Pixel} {r : Ras} (hs : drawSequence i = some seq)
    (hf : drawFault r i ≠ some .negRadius) (hon : ∀ p ∈ seq, onSurface r.lw r.lh p.x p.y = true) :
    drawFault r i = none := by
  cases i <;> simp only [drawSequence, Option.some.injEq, reduceCtorEq] at hs <;> subst hs
  case line => exact cornersFault_none_of_mem hon (ends_mem_seqLine ..)
  case circle =>
    have hr := circleFault_negRadius hf
    exact circleFault_none_of_holdsTips hr hon (holdsTips_seqCircle hr)
  case circleF =>
    have hr := circleFault_negRadius hf
    exact circleFault_none_of_holdsTips hr hon (holdsTips_seqDisc hr)
  case ellipse =>
    have hr := ellipseFault_negRadius hf
    exact ellipseFault_none_of_holdsTips hr hon (holdsTips_seqEllipse hr.1 hr.2)
  case ellipseF =>
    have hr := ellipseFault_negRadius hf
    exact ellipseFault_none_of_holdsTips hr hon (holdsTips_seqEllipseFilled hr.1 hr.2)
  case rect => exact cornersFault_none_of_mem hon (corners_mem_seqRect ..)
  case rectF => exact cornersFault_none_of_mem hon (corners_mem_seqRectFilled ..)

end Sys2Proof.Machine

namespace Sys2Proof.Claims

open Sys2Proof.Machine

/-- Settles O13: the three commands ask both corners on the Surface, and take `OutOfBounds` otherwise. -/
theorem lineAndRectanglesOffTheSurfaceFault : Obligations.LineAndRectanglesOffTheSurfaceFault :=
  fun _ _ _ _ _ _ _ hidle hoff =>
    ⟨fun hc => exec_faulted hidle rfl hc (cornersFault_outOfBounds hoff),
      fun hc => exec_faulted hidle rfl hc (cornersFault_outOfBounds hoff),
      fun hc => exec_faulted hidle rfl hc (cornersFault_outOfBounds hoff)⟩

/-- Settles O49: the box of a command that passes holds its sequence, and the sequence holds the outermost pixels of the box. -/
theorem boundsCheckIsExact : Obligations.BoundsCheckIsExact := fun _ _ _ hs hf =>
  ⟨drawSequence_onSurface hs, drawFault_none_of_onSurface hs hf⟩

end Sys2Proof.Claims
end

section
/-! # The circle and the disc (R92 to R99) -/

namespace Sys2Proof.Machine

/-! ### Refused round shapes (R98, R114) -/

theorem circleFault_of_neg {r : Ras} {cx cy radius : Int} (h : radius < 0) :
    circleFault r cx cy radius = some .negRadius := if_pos h

theorem circleFault_of_off {r : Ras} {cx cy radius : Int} (h0 : 0 ≤ radius)
    (hoff : ¬ (0 ≤ cx - radius ∧ cx + radius < (r.lw.toNat : Int) ∧
      0 ≤ cy - radius ∧ cy + radius < (r.lh.toNat : Int))) :
    circleFault r cx cy radius = some .outOfBounds := by
  rw [← extentOnSurface_iff, Bool.not_eq_true] at hoff
  rw [circleFault, if_neg h0.not_gt, if_pos hoff]

theorem ellipseFault_of_neg {r : Ras} {cx cy rx ry : Int} (h : rx < 0 ∨ ry < 0) :
    ellipseFault r cx cy rx ry = some .negRadius := if_pos h

/-- The box of an ellipse is that of its effective extents: the centre alone if a half-axis is 0 (R114). -/
theorem ellipseFault_of_off {r : Ras} {cx cy rx ry : Int} (h0 : 0 ≤ rx) (h1 : 0 ≤ ry)
    (hoff : ¬ (if rx = 0 ∨ ry = 0
      then 0 ≤ cx - 0 ∧ cx + 0 < (r.lw.toNat : Int) ∧ 0 ≤ cy - 0 ∧ cy + 0 < (r.lh.toNat : Int)
      else 0 ≤ cx - rx ∧ cx + rx < (r.lw.toNat : Int) ∧ 0 ≤ cy - ry ∧ cy + ry < (r.lh.toNat : Int))) :
    ellipseFault r cx cy rx ry = some .outOfBounds := by
  have hext : extentOnSurface r.lw r.lh cx cy (effectiveExtent rx ry rx) (effectiveExtent rx ry ry) = false := by
    rw [← Bool.not_eq_true, extentOnSurface_iff, effectiveExtent, effectiveExtent]
    split at hoff
    next hzero => simpa only [if_pos hzero] using hoff
    next hpos => simpa only [if_neg hpos] using hoff
  rw [ellipseFault, if_neg (by omega), if_pos hext]

/-! ### One visit of the octant walk (R92) -/

/-- `y` is the row nearest to the circle in column `x`: the closed form of R92. -/
def onCircle (r x y : Int) : Prop :=
  (2 * y - 1) * (2 * y - 1) ≤ 4 * (r * r - x * x) ∧ 4 * (r * r - x * x) < (2 * y + 1) * (2 * y + 1)

/-- What the octant walk keeps (R92): `d` is the circle function at the next midpoint, `(x, y)` is not below the circle's row, and
is on it as long as the walk goes on. -/
def octInv (r x y d : Int) : Prop :=
  0 ≤ x ∧ 0 ≤ y ∧ d = (x + 1) * (x + 1) + y * y - y - r * r ∧
  4 * (r * r - x * x) < (2 * y + 1) * (2 * y + 1) ∧ (x ≤ y → (2 * y - 1) * (2 * y - 1) ≤ 4 * (r * r - x * x))

theorem octInv_start {r : Int} (hr : 1 ≤ r) : octInv r 0 r (1 - r) := by
  refine ⟨le_refl _, by omega, by ring, by linarith, fun _ => by linarith⟩

theorem octInv_onCircle {r x y d : Int} (h : octInv r x y d) (hxy : x ≤ y) : onCircle r x y := by
  obtain ⟨-, -, -, hup, hlow⟩ := h
  exact ⟨hlow hxy, hup⟩

/-- A row whose lower midpoint is inside is not above a row whose upper midpoint is outside. -/
theorem row_le {c y y' : Int} (h0 : 0 ≤ y') (h : (2 * y - 1) * (2 * y - 1) ≤ c) (h' : c < (2 * y' + 1) * (2 * y' + 1)) :
    y ≤ y' := by
  have := lt_of_mul_self_lt_mul_self₀ (by omega) (h.trans_lt h')
  omega

/-- The origin is on no circle, so the walk does not fall below row 0. -/
theorem onCircle_row_pos {r x y : Int} (h : onCircle r x y) (hx : 0 ≤ x) (hxy : x ≤ y) : 1 ≤ y := by
  by_contra hy
  obtain ⟨rfl, rfl⟩ : x = 0 ∧ y = 0 := by omega
  exact absurd (h.1.trans_lt h.2) (by decide)

/-- `d < 0`: the midpoint is inside, the row is kept (R92). -/
theorem octInv_keep {r x y d : Int} (h : octInv r x y d) (hd : d < 0) : octInv r (x + 1) y (d + 2 * x + 3) := by
  obtain ⟨hx, hy, rfl, hup, -⟩ := h
  exact ⟨by omega, hy, by ring, by linarith, fun _ => by linarith⟩

/-- `d >= 0`: the midpoint is outside, the row drops by one (R92). -/
theorem octInv_drop {r x y d : Int} (h : octInv r x y d) (hxy : x ≤ y) (hd : ¬ d < 0) :
    octInv r (x + 1) (y - 1) (d + 2 * (x - y) + 5) := by
  have hcirc := octInv_onCircle h hxy
  obtain ⟨hx, -, rfl, -⟩ := h
  have hy := onCircle_row_pos hcirc hx hxy
  exact ⟨by omega, by omega, by ring, by linarith, fun _ => by linarith [hcirc.1]⟩

/-- A visit, and where the walk goes on from (R92). -/
theorem octWalk_visit {x y : Int} (n : Nat) (d : Int) (hxy : x ≤ y) : ∃ y' d', (y' = y ∨ y' = y - 1) ∧
    (∀ r, octInv r x y d → octInv r (x + 1) y' d') ∧
    octWalk (n + 1) x y d = { x := x, y := y } :: octWalk n (x + 1) y' d' := by
  by_cases hd : d < 0
  · exact ⟨y, _, .inl rfl, fun r h => octInv_keep h hd, by rw [octWalk, if_pos hxy, if_pos hd]⟩
  · exact ⟨y - 1, _, .inr rfl, fun r h => octInv_drop h hxy hd, by rw [octWalk, if_pos hxy, if_neg hd]⟩

theorem octWalk_past {x y : Int} (n : Nat) (d : Int) (h : y < x) : octWalk n x y d = [] := by
  cases n with
  | zero => rfl
  | succ n => rw [octWalk, if_neg h.not_ge]

/-! ### The whole octant walk (R92) -/

/-- Where the walk has ended, no column further on is in the octant (R92). -/
theorem not_onCircle_past {r x y d x' y' : Int} (h : octInv r x y d) (hlt : y < x) (hx : x ≤ x') (hxy : x' ≤ y') :
    ¬ onCircle r x' y' := by
  intro hcirc
  obtain ⟨hx0, hy0, -, hup, -⟩ := h
  have hsq : x * x ≤ x' * x' := mul_self_le_mul_self hx0 hx
  have := row_le hy0 hcirc.1 (by linarith)
  omega

theorem onCircle_unique {r x y y' : Int} (h : onCircle r x y) (h' : onCircle r x y') (hy : 0 ≤ y) (hy' : 0 ≤ y') : y = y' :=
  le_antisymm (row_le hy' h.1 h'.2) (row_le hy h'.1 h.2)

/-- The closed form (R92): the walk visits just the columns in the octant, each on the circle's row. -/
theorem mem_octWalk {r : Int} {p : Pixel} {n : Nat} {x y d : Int} (h : octInv r x y d) (hn : y - x < n) :
    p ∈ octWalk n x y d ↔ x ≤ p.x ∧ p.x ≤ p.y ∧ onCircle r p.x p.y := by
  induction n generalizing x y d with
  | zero =>
    have hpast := not_onCircle_past h (x' := p.x) (y' := p.y) (by omega)
    simp only [octWalk, List.not_mem_nil, false_iff]
    exact fun ⟨hx, hxy, hc⟩ => hpast hx hxy hc
  | succ n ih =>
    rcases lt_or_ge y x with hlt | hxy
    · simp only [octWalk_past _ _ hlt, List.not_mem_nil, false_iff]
      exact fun ⟨hx, hxy, hc⟩ => not_onCircle_past h hlt hx hxy hc
    · obtain ⟨y', d', hy', hinv, hwalk⟩ := octWalk_visit n d hxy
      have hcirc := octInv_onCircle h hxy
      rw [hwalk, List.mem_cons, ih (hinv r h) (by omega)]
      constructor
      · rintro (rfl | ⟨hx, hpxy, hc⟩)
        · exact ⟨le_refl _, hxy, hcirc⟩
        · exact ⟨by omega, hpxy, hc⟩
      · rintro ⟨hx, hpxy, hc⟩
        rcases hx.lt_or_eq with hlt | rfl
        · exact .inr ⟨hlt, hpxy, hc⟩
        · have hy := onCircle_unique hc hcirc (h.1.trans hpxy) h.2.1
          exact .inl (congrArg (Pixel.mk p.x) hy)

theorem mem_oct {r : Int} (hr : 1 ≤ r) {p : Pixel} :
    p ∈ oct r ↔ 0 ≤ p.x ∧ p.x ≤ p.y ∧ onCircle r p.x p.y :=
  mem_octWalk (octInv_start hr) (by omega)

/-- From one visit to the next (R92). -/
def octStep (p q : Pixel) : Prop := q.x = p.x + 1 ∧ (q.y = p.y ∨ q.y = p.y - 1)

/-- A walk that visits anything starts where it stands. -/
theorem head?_octWalk {n : Nat} {x y d : Int} {p : Pixel} (hp : p ∈ (octWalk n x y d).head?) : p = { x := x, y := y } := by
  cases n with
  | zero => cases hp
  | succ n =>
    rcases lt_or_ge y x with hlt | hxy
    · rw [octWalk_past _ _ hlt] at hp
      cases hp
    · obtain ⟨y', d', -, -, hwalk⟩ := octWalk_visit n d hxy
      rw [hwalk] at hp
      exact (Option.some.inj hp).symm

theorem octWalk_isChain (n : Nat) (x y d : Int) : (octWalk n x y d).IsChain octStep := by
  induction n generalizing x y d with
  | zero => exact .nil
  | succ n ih =>
    rcases lt_or_ge y x with hlt | hxy
    · rw [octWalk_past _ _ hlt]
      exact .nil
    · obtain ⟨y', d', hy', -, hwalk⟩ := octWalk_visit n d hxy
      rw [hwalk]
      refine List.isChain_cons.2 ⟨fun q hq => ?_, ih ..⟩
      rw [head?_octWalk hq]
      exact ⟨rfl, hy'⟩

/-- Visit `i` is in column `x + i` (R92). -/
theorem octWalk_column {n i : Nat} {x y d : Int} {p : Pixel} (hp : (octWalk n x y d)[i]? = some p) : p.x = x + i := by
  induction i generalizing p with
  | zero =>
    rw [← List.head?_eq_getElem?] at hp
    rw [head?_octWalk hp]
    simp
  | succ i ih =>
    obtain ⟨hi, rfl⟩ := List.getElem?_eq_some_iff.1 hp
    have hstep := ((octWalk_isChain n x y d).getElem i hi).1
    rw [hstep, ih (List.getElem?_eq_getElem (by omega))]
    push_cast
    ring

/-- Each row and column between the walk's start and the diagonal holds a visit (R92, R95). -/
theorem octWalk_covers {n : Nat} {x y j : Int} (d : Int) (hn : y - x < n) (hx : x ≤ j) (hy : j ≤ y) :
    ∃ p ∈ octWalk n x y d, p.x = j ∨ p.y = j := by
  induction n generalizing x y d with
  | zero => omega
  | succ n ih =>
    obtain ⟨y', d', hy', -, hwalk⟩ := octWalk_visit n d (hx.trans hy)
    rw [hwalk]
    by_cases hj : x = j ∨ y = j
    · exact ⟨_, List.mem_cons_self, hj⟩
    · obtain ⟨p, hp, hpj⟩ := ih d' (by omega) (x := x + 1) (y := y') (by omega) (by omega)
      exact ⟨p, List.mem_cons_of_mem _ hp, hpj⟩

/-- The walk ends within one pixel of the diagonal (R92, R94 (c)). -/
theorem octWalk_last {n : Nat} {x y d : Int} {p : Pixel} (hn : y - x < n) (hp : (octWalk n x y d).getLast? = some p) :
    p.y - p.x ≤ 1 := by
  induction n generalizing x y d with
  | zero => cases hp
  | succ n ih =>
    rcases lt_or_ge y x with hlt | hxy
    · rw [octWalk_past _ _ hlt] at hp
      cases hp
    · obtain ⟨y', d', hy', -, hwalk⟩ := octWalk_visit n d hxy
      rw [hwalk] at hp
      rcases lt_or_ge y' (x + 1) with hend | hgo
      · rw [octWalk_past _ _ hend] at hp
        obtain rfl : { x := x, y := y } = p := Option.some.inj hp
        simp only
        omega
      · obtain ⟨q, hq, -⟩ := octWalk_covers (n := n) d' (by omega) le_rfl hgo
        rw [List.getLast?_cons_of_ne_nil (List.ne_nil_of_mem hq)] at hp
        exact ih (by omega) hp

/-- R92: every visit is nearer to the centre than `r + 1/2`. -/
theorem oct_norm_lt {r : Int} {p : Pixel} (hr : 0 ≤ r) (hp : p ∈ oct r) :
    4 * (p.x * p.x + p.y * p.y) < (2 * r + 1) * (2 * r + 1) := by
  obtain ⟨h0, hxy, hyr⟩ := oct_bounds hp
  rcases hr.lt_or_eq with hpos | rfl
  · have hlow := ((mem_oct hpos).1 hp).2.2.1
    linarith
  · obtain ⟨hx, hy⟩ : p.x = 0 ∧ p.y = 0 := by omega
    rw [hx, hy]
    decide

/-- R92: every visit is at least `r - 1/2` from the centre. -/
theorem le_oct_norm {r : Int} {p : Pixel} (hr : 1 ≤ r) (hp : p ∈ oct r) :
    (2 * r - 1) * (2 * r - 1) ≤ 4 * (p.x * p.x + p.y * p.y) := by
  obtain ⟨-, -, hyr⟩ := oct_bounds hp
  have hup := ((mem_oct hr).1 hp).2.2.2
  rcases hyr.lt_or_eq with hlt | heq
  · linarith
  · rw [heq]
    linarith [mul_self_nonneg p.x]

/-! ### The outline (R93, R94) -/

/-- The octant point that a pixel is a mirror image of, around the centre `(cx, cy)` (R93). -/
def octantOf (cx cy : Int) (q : Pixel) : Pixel :=
  { x := (min (q.x - cx).natAbs (q.y - cy).natAbs : Nat), y := (max (q.x - cx).natAbs (q.y - cy).natAbs : Nat) }

theorem octantOf_of_mem_plot8 {cx cy : Int} {p q : Pixel} (hx : 0 ≤ p.x) (hxy : p.x ≤ p.y) (hq : q ∈ plot8 cx cy p) :
    octantOf cx cy q = p := by
  obtain ⟨hmin, hmax⟩ := mem_plot8 hx hxy hq
  rw [octantOf, hmin, hmax, Int.toNat_of_nonneg hx, Int.toNat_of_nonneg (hx.trans hxy)]

theorem octantOf_of_octant {p : Pixel} (hx : 0 ≤ p.x) (hxy : p.x ≤ p.y) : octantOf 0 0 p = p :=
  octantOf_of_mem_plot8 hx hxy (by simp [plot8])

theorem octantOf_swap (q : Pixel) : octantOf 0 0 { x := q.y, y := q.x } = octantOf 0 0 q := by
  simp only [octantOf, min_comm, max_comm]

theorem mem_plot8_octantOf (cx cy : Int) (q : Pixel) : q ∈ plot8 cx cy (octantOf cx cy q) := by
  obtain ⟨u, v⟩ := q
  have hu : u = cx + (u - cx).natAbs ∨ u = cx - (u - cx).natAbs := by omega
  have hv : v = cy + (v - cy).natAbs ∨ v = cy - (v - cy).natAbs := by omega
  simp only [plot8, octantOf, mem_firstOccurrences, List.mem_cons, List.not_mem_nil, or_false, Pixel.mk.injEq]
  rcases le_total (u - cx).natAbs (v - cy).natAbs with h | h
  · rw [min_eq_left h, max_eq_right h]
    rcases hu with hu | hu <;> rcases hv with hv | hv <;>
      simp only [← hu, ← hv, and_self, true_or, or_true]
  · rw [min_eq_right h, max_eq_left h]
    rcases hu with hu | hu <;> rcases hv with hv | hv <;>
      simp only [← hu, ← hv, and_self, true_or, or_true]

/-- The outline is the octant walk's mirror images, and nothing else, around any centre (R93). -/
theorem mem_seqCircle {cx cy r : Int} {q : Pixel} : q ∈ seqCircle cx cy r ↔ octantOf cx cy q ∈ oct r := by
  refine List.mem_flatMap.trans ⟨?_, fun h => ⟨_, h, mem_plot8_octantOf cx cy q⟩⟩
  rintro ⟨p, hp, hq⟩
  obtain ⟨h0, h1, -⟩ := oct_bounds hp
  rwa [octantOf_of_mem_plot8 h0 h1 hq]

theorem mem_seqCircle_congr {cx cy cx' cy' r : Int} {q q' : Pixel} (h : octantOf cx cy q = octantOf cx' cy' q') :
    q ∈ seqCircle cx cy r ↔ q' ∈ seqCircle cx' cy' r := by
  rw [mem_seqCircle, mem_seqCircle, h]

/-- A pixel is as far from the centre as its octant point. -/
theorem octantOf_norm (q : Pixel) : (octantOf 0 0 q).x * (octantOf 0 0 q).x + (octantOf 0 0 q).y * (octantOf 0 0 q).y =
    q.x * q.x + q.y * q.y := by
  rcases le_total q.x.natAbs q.y.natAbs with h | h
  · simp only [octantOf, sub_zero, min_eq_left h, max_eq_right h, Int.natAbs_mul_self']
  · simp only [octantOf, sub_zero, min_eq_right h, max_eq_left h, Int.natAbs_mul_self', add_comm]

/-- An outline pixel is nearer to the centre than `r + 1/2` (R94 (d)). -/
theorem seqCircle_norm_lt {r : Int} {q : Pixel} (hr : 0 ≤ r) (hq : q ∈ seqCircle 0 0 r) :
    4 * (q.x * q.x + q.y * q.y) < (2 * r + 1) * (2 * r + 1) :=
  octantOf_norm q ▸ oct_norm_lt hr (mem_seqCircle.1 hq)

/-- An outline pixel is at least `r - 1/2` from the centre (R94 (d)). -/
theorem le_seqCircle_norm {r : Int} {q : Pixel} (hr : 1 ≤ r) (hq : q ∈ seqCircle 0 0 r) :
    (2 * r - 1) * (2 * r - 1) ≤ 4 * (q.x * q.x + q.y * q.y) :=
  octantOf_norm q ▸ le_oct_norm hr (mem_seqCircle.1 hq)

/-! ### The disc (R95, R96) -/

/-- `Q(r)` is the part of the outline in the quadrant (R95). -/
theorem mem_quarter {r : Int} {p : Pixel} : p ∈ quarter r ↔ (0 ≤ p.x ∧ 0 ≤ p.y) ∧ p ∈ seqCircle 0 0 r := by
  simp only [quarter, List.mem_append, List.mem_map]
  constructor
  · rintro (hp | ⟨q, hq, rfl⟩)
    · obtain ⟨h0, h1, -⟩ := oct_bounds hp
      exact ⟨⟨h0, h0.trans h1⟩, mem_seqCircle.2 ((octantOf_of_octant h0 h1).symm ▸ hp)⟩
    · obtain ⟨h0, h1, -⟩ := oct_bounds hq
      refine ⟨⟨h0.trans h1, h0⟩, mem_seqCircle.2 ?_⟩
      rwa [octantOf_swap, octantOf_of_octant h0 h1]
  · rintro ⟨⟨hx, hy⟩, hp⟩
    rw [mem_seqCircle] at hp
    rcases le_total p.x p.y with hxy | hyx
    · exact .inl (octantOf_of_octant hx hxy ▸ hp)
    · rw [← octantOf_swap, octantOf_of_octant hy hyx] at hp
      exact .inr ⟨_, hp, rfl⟩

theorem rowMax_foldl_attained (pts : List Pixel) (j m : Int) :
    pts.foldl (fun m p => if p.y = j then max m p.x else m) m = m ∨
      { x := pts.foldl (fun m p => if p.y = j then max m p.x else m) m, y := j } ∈ pts := by
  induction pts generalizing m with
  | nil => exact .inl rfl
  | cons p ps ih =>
    rw [List.foldl_cons]
    rcases ih (if p.y = j then max m p.x else m) with heq | hmem
    · rw [heq]
      split
      next hj =>
        rcases max_choice m p.x with hm | hp
        · exact .inl hm
        · rw [hp, ← hj]
          exact .inr List.mem_cons_self
      next => exact .inl rfl
    · exact .inr (List.mem_cons_of_mem _ hmem)

/-- A row that holds a point reaches as far as one of its points (R95). -/
theorem rowMax_mem {pts : List Pixel} {p : Pixel} (hx : 0 ≤ p.x) (hp : p ∈ pts) :
    { x := rowMax pts p.y, y := p.y } ∈ pts := by
  rcases rowMax_foldl_attained pts p.y 0 with hzero | hmem
  · have hpx : rowMax pts p.y = p.x := le_antisymm (hzero.trans_le hx) (le_rowMax hp)
    rwa [hpx]
  · exact hmem

/-- Every row from 0 to `r` has at least one point (R95). -/
theorem exists_mem_quarter {r j : Int} (h0 : 0 ≤ j) (hj : j ≤ r) : ∃ p ∈ quarter r, p.y = j := by
  obtain ⟨p, hp, hx | hy⟩ := octWalk_covers (n := r.toNat + 1) (1 - r) (by omega) h0 hj
  · exact ⟨_, List.mem_append_right _ (List.mem_map.2 ⟨p, hp, rfl⟩), hx⟩
  · exact ⟨p, List.mem_append_left _ hp, hy⟩

/-- `XM(j)` is a point of the outline (R95). -/
theorem rowMax_quarter_mem {r j : Int} (h0 : 0 ≤ j) (hj : j ≤ r) :
    { x := rowMax (quarter r) j, y := j } ∈ seqCircle 0 0 r := by
  obtain ⟨p, hp, rfl⟩ := exists_mem_quarter h0 hj
  exact (mem_quarter.1 (rowMax_mem (mem_quarter.1 hp).1.1 hp)).2

theorem mem_seqDisc {cx cy r : Int} {p : Pixel} : p ∈ seqDisc cx cy r ↔ (-r ≤ p.y - cy ∧ p.y - cy ≤ r) ∧
    -rowMax (quarter r) ((p.y - cy).natAbs : Int) ≤ p.x - cx ∧ p.x - cx ≤ rowMax (quarter r) ((p.y - cy).natAbs : Int) :=
  mem_spanFill

/-- R96 (b). -/
theorem mem_seqDisc_of_mem_seqCircle {r : Int} {p : Pixel} (hp : p ∈ seqCircle 0 0 r) : p ∈ seqDisc 0 0 r := by
  obtain ⟨-, -, h1, h2⟩ := seqCircle_inBox hp
  have hfold : { x := (p.x.natAbs : Nat), y := (p.y.natAbs : Nat) } ∈ seqCircle 0 0 r :=
    (mem_seqCircle_congr (by simp [octantOf])).2 hp
  have hmax := le_rowMax (mem_quarter.2 ⟨⟨by simp, by simp⟩, hfold⟩)
  simp only at hmax
  refine mem_seqDisc.2 ⟨⟨by omega, by omega⟩, ?_⟩
  rw [sub_zero, sub_zero]
  omega

/-- R96 (c): a row of the disc is the segment between two pixels of the outline. -/
theorem seqDisc_row {r : Int} {p : Pixel} (hp : p ∈ seqDisc 0 0 r) : ∃ m : Int, p.x.natAbs ≤ m ∧
    { x := m, y := p.y } ∈ seqCircle 0 0 r ∧ { x := -m, y := p.y } ∈ seqCircle 0 0 r ∧
    ∀ x : Int, { x := x, y := p.y } ∈ seqDisc 0 0 r ↔ -m ≤ x ∧ x ≤ m := by
  obtain ⟨hy, hx⟩ := mem_seqDisc.1 hp
  rw [sub_zero] at hy hx
  rw [sub_zero] at hx
  have hend := rowMax_quarter_mem (r := r) (j := p.y.natAbs) (by omega) (by omega)
  refine ⟨rowMax (quarter r) p.y.natAbs, by omega, (mem_seqCircle_congr ?_).2 hend, (mem_seqCircle_congr ?_).2 hend,
    fun x => ?_⟩
  · simp [octantOf]
  · simp [octantOf]
  · simp only [mem_seqDisc, sub_zero, hy, true_and, and_self]

/-- R96 (e). -/
theorem seqDisc_norm_lt {r : Int} {p : Pixel} (hr : 0 ≤ r) (hp : p ∈ seqDisc 0 0 r) :
    4 * (p.x * p.x + p.y * p.y) < (2 * r + 1) * (2 * r + 1) := by
  obtain ⟨m, hm, hend, -, -⟩ := seqDisc_row hp
  have hsq : p.x * p.x ≤ m * m := by
    rw [← Int.natAbs_mul_self' p.x]
    exact mul_self_le_mul_self (Int.natCast_nonneg _) hm
  have := seqCircle_norm_lt hr hend
  simp only at this
  linarith

theorem mem_seqDisc_translate (cx cy x y r : Int) :
    { x := cx + x, y := cy + y } ∈ seqDisc cx cy r ↔ { x := x, y := y } ∈ seqDisc 0 0 r := by
  simp only [mem_seqDisc, add_sub_cancel_left, sub_zero]

theorem octantOf_translate (cx cy x y : Int) :
    octantOf cx cy { x := cx + x, y := cy + y } = octantOf 0 0 { x := x, y := y } := by
  simp only [octantOf, add_sub_cancel_left, sub_zero]

/-! ### Shapes of one pixel (R79, R99, R108) -/

theorem seqLine_self (x y : Int) : seqLine x y x y = [{ x := x, y := y }] := by
  simp [seqLine, lineFrom, lineWalk, lineEmit]

theorem plot8_origin (cx cy : Int) : plot8 cx cy { x := 0, y := 0 } = [{ x := cx, y := cy }] := by
  simp [plot8, firstOccurrences]

theorem plot4_origin (cx cy : Int) : plot4 cx cy { x := 0, y := 0 } = [{ x := cx, y := cy }] := by
  simp [plot4, firstOccurrences]

/-- A span fill of one row of one pixel. -/
theorem spanFill_zero (cx cy : Int) {xm : Int → Int} (h : xm 0 = 0) : spanFill cx cy 0 xm = [{ x := cx, y := cy }] := by
  have hspan : span 0 0 = [0] := rfl
  simp [spanFill, h, hspan]

theorem oct_zero : oct 0 = [{ x := 0, y := 0 }] := rfl

theorem seqCircle_zero (cx cy : Int) : seqCircle cx cy 0 = [{ x := cx, y := cy }] := by
  rw [seqCircle, oct_zero, List.flatMap_singleton, plot8_origin]

theorem rowMax_quarter_zero : rowMax (quarter 0) 0 = 0 := rfl

theorem seqDisc_zero (cx cy : Int) : seqDisc cx cy 0 = [{ x := cx, y := cy }] := spanFill_zero cx cy rowMax_quarter_zero

theorem quad_degenerate {rx ry : Int} (h : rx = 0 ∨ ry = 0) : quad rx ry = [{ x := 0, y := 0 }] := if_pos h

theorem seqEllipse_degenerate {rx ry : Int} (h : rx = 0 ∨ ry = 0) (cx cy : Int) :
    seqEllipse cx cy rx ry = [{ x := cx, y := cy }] := by
  rw [seqEllipse, quad_degenerate h, List.flatMap_singleton, plot4_origin]

theorem seqEllipseFilled_degenerate {rx ry : Int} (h : rx = 0 ∨ ry = 0) (cx cy : Int) :
    seqEllipseFilled cx cy rx ry = [{ x := cx, y := cy }] := by
  rw [seqEllipseFilled, quad_degenerate h, effectiveExtent, if_pos h]
  exact spanFill_zero cx cy rfl

end Sys2Proof.Machine

namespace Sys2Proof.Claims

open Sys2Proof.Machine

/-- Settles O14: the accept step takes the first failing test of R98 and of R114, outline or filled. -/
theorem roundShapesFaultInOrder : Obligations.RoundShapesFaultInOrder := by
  intro cx cy a b color filled c s hidle
  cases filled <;>
  exact ⟨fun hc => ⟨fun ha => exec_faulted hidle rfl hc (circleFault_of_neg ha),
      fun ha hoff => exec_faulted hidle rfl hc (circleFault_of_off ha hoff)⟩,
    fun hc => ⟨fun hab => exec_faulted hidle rfl hc (ellipseFault_of_neg hab),
      fun ha hb hoff => exec_faulted hidle rfl hc (ellipseFault_of_off ha hb hoff)⟩⟩

/-- Settles O44, by the invariant of the octant walk, the circle function at the next midpoint. -/
theorem circleStaysInItsRing : Obligations.CircleStaysInItsRing := by
  intro r hr
  refine ⟨by simp [oct, octWalk, show 0 ≤ r by omega], fun p => oct_bounds, fun n p q hp hq => ?_,
    fun n p hp => (octWalk_column hp).trans (zero_add _), fun x y => mem_oct hr, fun p => octWalk_last (by omega),
    fun p hp => ⟨le_seqCircle_norm hr hp, seqCircle_norm_lt (by omega) hp⟩⟩
  obtain ⟨hn, rfl⟩ := List.getElem?_eq_some_iff.1 hq
  obtain ⟨-, rfl⟩ := List.getElem?_eq_some_iff.1 hp
  exact (octWalk_isChain ..).getElem n hn

/-- Settles O45: a pixel is in the outline just when its octant point is in the walk, and reflections and translations keep that
point. -/
theorem circleSymmetries : Obligations.CircleSymmetries := by
  intro r x y _
  refine ⟨?_, fun h => ⟨(mem_seqCircle_congr ?_).2 h, (mem_seqCircle_congr ?_).2 h, (mem_seqCircle_congr ?_).2 h⟩,
    fun cx cy => mem_seqCircle_congr (octantOf_translate ..)⟩
  · simp only [mem_seqCircle, octantOf, sub_zero]
  · simp [octantOf]
  · simp [octantOf]
  · exact octantOf_swap { x := x, y := y }

/-- Settles O46: a row of the disc ends at the outermost outline pixels of that row. -/
theorem discFillsTheCircle : Obligations.DiscFillsTheCircle := fun r hr =>
  ⟨fun _ => mem_seqDisc_of_mem_seqCircle, fun _ => seqDisc_row, fun _ => seqDisc_norm_lt hr,
    fun cx cy x y => mem_seqDisc_translate cx cy x y r⟩

/-- Settles O41: each walk visits one point, and all mirror images of that point are the centre. -/
theorem degenerateShapesAreOnePixel : Obligations.DegenerateShapesAreOnePixel :=
  ⟨seqLine_self, ⟨oct_zero, rowMax_quarter_zero, plot8_origin, fun cx cy => ⟨seqCircle_zero cx cy, seqDisc_zero cx cy⟩⟩,
    fun _ _ h => ⟨quad_degenerate h, fun cx cy => ⟨seqEllipse_degenerate h cx cy, seqEllipseFilled_degenerate h cx cy⟩⟩⟩

end Sys2Proof.Claims
end

section
/-! # The ellipses (R107 to R112) -/

namespace Sys2Proof.Machine

/-! ### The quadrant walk, one point from the other (R107) -/

/-- The point of the quadrant walk after `p` (R107): by `F1` in region 1, by `F2` in region 2, along row 0 in the tip. -/
def quadNext (rx ry : Int) (p : Pixel) : Pixel :=
  if ry * ry * p.x < rx * rx * p.y then
    { x := p.x + 1, y := if ellipseF1 (rx * rx) (ry * ry) p.x p.y ≥ 0 then p.y - 1 else p.y }
  else if 0 < p.y then
    { x := if ellipseF2 (rx * rx) (ry * ry) p.x p.y ≤ 0 then p.x + 1 else p.x, y := p.y - 1 }
  else { x := p.x + 1, y := 0 }

theorem quadNext_region1 {rx ry : Int} {p : Pixel} (h : ry * ry * p.x < rx * rx * p.y) : quadNext rx ry p =
    { x := p.x + 1, y := if ellipseF1 (rx * rx) (ry * ry) p.x p.y ≥ 0 then p.y - 1 else p.y } := if_pos h

theorem quadNext_region2 {rx ry : Int} {p : Pixel} (h : ¬ ry * ry * p.x < rx * rx * p.y) (hy : 0 < p.y) : quadNext rx ry p =
    { x := if ellipseF2 (rx * rx) (ry * ry) p.x p.y ≤ 0 then p.x + 1 else p.x, y := p.y - 1 } :=
  (if_neg h).trans (if_pos hy)

theorem quadNext_tip {rx ry : Int} {p : Pixel} (hx : 0 ≤ p.x) (hy : p.y = 0) :
    quadNext rx ry p = { x := p.x + 1, y := 0 } := by
  have htest : ¬ ry * ry * p.x < rx * rx * p.y := by
    rw [hy, mul_zero]
    exact (mul_nonneg (mul_self_nonneg ry) hx).not_gt
  exact (if_neg htest).trans (if_neg hy.le.not_gt)

/-- One visit to the next goes right or down or both, by one (R110 (c)). -/
theorem quadNext_bounds (rx ry : Int) {p : Pixel} (hx : 0 ≤ p.x) (hy : 0 ≤ p.y) :
    p.x ≤ (quadNext rx ry p).x ∧ (quadNext rx ry p).x ≤ p.x + 1 ∧ (quadNext rx ry p).y ≤ p.y ∧
      p.y ≤ (quadNext rx ry p).y + 1 ∧ p ≠ quadNext rx ry p := by
  obtain ⟨x, y⟩ := p
  unfold quadNext
  split_ifs <;> simp only [ne_eq, Pixel.mk.injEq] at * <;> omega

theorem ellipseF1_eq_sq (a2 b2 x y : Int) :
    ellipseF1 a2 b2 x y = 4 * b2 * (x + 1) ^ 2 + a2 * (2 * y - 1) ^ 2 - 4 * a2 * b2 := by
  rw [ellipseF1]
  ring

theorem ellipseF2_eq_sq (a2 b2 x y : Int) :
    ellipseF2 a2 b2 x y = b2 * (2 * x + 1) ^ 2 + 4 * a2 * (y - 1) ^ 2 - 4 * a2 * b2 := by
  rw [ellipseF2]
  ring

/-- The decisions of R107, read off one visit and the next. -/
theorem quadNext_decisions (rx ry : Int) {p : Pixel} (hx : 0 ≤ p.x) (hy : 0 ≤ p.y) :
    if ry * ry * p.x < rx * rx * p.y then
      (quadNext rx ry p).x = p.x + 1 ∧
        ((quadNext rx ry p).y = p.y - 1 ↔ ellipseF1 (rx * rx) (ry * ry) p.x p.y ≥ 0)
    else if 0 < p.y then
      (quadNext rx ry p).y = p.y - 1 ∧
        ((quadNext rx ry p).x = p.x + 1 ↔ ellipseF2 (rx * rx) (ry * ry) p.x p.y ≤ 0)
    else (quadNext rx ry p).x = p.x + 1 ∧ (quadNext rx ry p).y = 0 := by
  split_ifs with htest hrow
  · rw [quadNext_region1 htest]
    exact ⟨rfl, by simp only; split <;> omega⟩
  · rw [quadNext_region2 htest hrow]
    exact ⟨rfl, by simp only; split <;> omega⟩
  · rw [quadNext_tip hx (by omega)]
    exact ⟨rfl, rfl⟩

/-- Each point of the list is the walk's next one after the point before it. -/
def followsWalk (rx ry : Int) (l : List Pixel) : Prop := l.IsChain fun p q => q = quadNext rx ry p

theorem region1_visit {a2 b2 x y : Int} (n : Nat) (h : b2 * x < a2 * y) : region1 a2 b2 (n + 1) x y =
    ({ x := x, y := y } :: (region1 a2 b2 n (x + 1) (if ellipseF1 a2 b2 x y ≥ 0 then y - 1 else y)).1,
      (region1 a2 b2 n (x + 1) (if ellipseF1 a2 b2 x y ≥ 0 then y - 1 else y)).2) := if_pos h

theorem region1_exit {a2 b2 x y : Int} (n : Nat) (h : ¬ b2 * x < a2 * y) :
    region1 a2 b2 n x y = ([], { x := x, y := y }) := by
  cases n with
  | zero => rfl
  | succ n => exact if_neg h

/-- Region 1, with a list after it that starts at its exit, starts where region 1 does (R107). -/
theorem head?_region1_append {a2 b2 : Int} {n : Nat} {x y : Int} {l : List Pixel}
    (hl : l.head? = some (region1 a2 b2 n x y).2) :
    ((region1 a2 b2 n x y).1 ++ l).head? = some { x := x, y := y } := by
  cases n with
  | zero => exact hl
  | succ n =>
    by_cases ht : b2 * x < a2 * y
    · rw [region1_visit n ht]
      rfl
    · rw [region1_exit _ ht] at hl ⊢
      exact hl

theorem followsWalk_region1_append {rx ry : Int} (n : Nat) (x y : Int) {l : List Pixel} (hchain : followsWalk rx ry l)
    (hl : l.head? = some (region1 (rx * rx) (ry * ry) n x y).2) :
    followsWalk rx ry ((region1 (rx * rx) (ry * ry) n x y).1 ++ l) := by
  induction n generalizing x y with
  | zero => exact hchain
  | succ n ih =>
    by_cases ht : ry * ry * x < rx * rx * y
    · rw [region1_visit n ht] at hl ⊢
      refine List.isChain_cons.2 ⟨fun q hq => ?_, ih _ _ hl⟩
      rw [quadNext_region1 ht]
      exact Option.some.inj (hq.symm.trans (head?_region1_append hl))
    · rw [region1_exit _ ht]
      exact hchain

/-- Region 2 starts past the region's test, and stays past it: `x` does not fall and `y` does. -/
theorem followsWalk_region2 {rx ry : Int} (n : Nat) (x y : Int) (hpast : ¬ ry * ry * x < rx * rx * y)
    (hn : (n : Int) ≤ y + 1) : followsWalk rx ry (region2 (rx * rx) (ry * ry) n x y) := by
  induction n generalizing x y with
  | zero => exact .nil
  | succ n ih =>
    refine List.isChain_cons.2 ⟨fun q hq => ?_, ih _ _ ?_ (by push_cast at hn; omega)⟩
    · cases n with
      | zero => exact absurd hq (by simp [region2])
      | succ n =>
        rw [quadNext_region2 hpast (by push_cast at hn; simp only; omega)]
        exact (Option.some.inj hq).symm
    · have ha := mul_self_nonneg rx
      have hb := mul_self_nonneg ry
      split <;> nlinarith

theorem span_isChain (lo hi : Int) : (span lo hi).IsChain fun a b => b = a + 1 := by
  rw [span_eq, List.isChain_map, List.isChain_range]
  intro m _
  push_cast
  ring

theorem followsWalk_tipCompletion {xl rx ry : Int} (h : 0 ≤ xl) : followsWalk rx ry (tipCompletion xl rx) := by
  refine (List.isChain_map _).2 ((span_isChain ..).imp_of_mem_imp fun a b ha _ hab => ?_)
  rw [quadNext_tip (h.trans (by linarith [(mem_span.1 ha).1])) rfl, hab]

theorem head?_tipCompletion {xl rx : Int} {q : Pixel} (hq : (tipCompletion xl rx).head? = some q) :
    q = { x := xl + 1, y := 0 } := by
  rw [tipCompletion, span_eq, List.head?_map, List.head?_map, List.head?_range] at hq
  split at hq
  · exact nomatch hq
  · simpa using hq.symm

theorem getLast?_tipCompletion {xl rx : Int} (h : xl < rx) :
    (tipCompletion xl rx).getLast? = some { x := rx, y := 0 } := by
  rw [tipCompletion, span_eq, List.getLast?_map, List.getLast?_map, List.getLast?_range, if_neg (by omega)]
  simp only [Option.map_some, Option.some.injEq, Pixel.mk.injEq, and_true]
  omega

/-- The tip goes on from the last point of region 2, on row 0 (R107). -/
theorem followsWalk_append_tip {rx ry xl : Int} {l : List Pixel} (hxl : 0 ≤ xl) (hl : followsWalk rx ry l)
    (hlast : l.getLast? = some { x := xl, y := 0 }) : followsWalk rx ry (l ++ tipCompletion xl rx) := by
  refine List.IsChain.append hl (followsWalk_tipCompletion hxl) fun p hp q hq => ?_
  rw [← Option.some.inj (hlast.symm.trans hp), quadNext_tip hxl rfl]
  exact head?_tipCompletion hq

theorem getLast?_append_tip {rx xl : Int} {l : List Pixel} (hle : xl ≤ rx)
    (hlast : l.getLast? = some { x := xl, y := 0 }) : (l ++ tipCompletion xl rx).getLast? = some { x := rx, y := 0 } := by
  rw [List.getLast?_append, hlast]
  rcases hle.lt_or_eq with hlt | rfl
  · rw [getLast?_tipCompletion hlt, Option.some_or]
  · simp [tipCompletion, span_eq]

/-! ### The whole quadrant walk (R107, R110) -/

/-- Region 2 and the tip, from the exit `e` of region 1: down to row 0, and there to `rx` (R107). -/
theorem lowerWalk_append_tip {rx ry : Int} (hx : 1 ≤ rx) (hy : 1 ≤ ry) {e : Pixel} (h0 : 0 ≤ e.x) (h1 : e.x ≤ rx)
    (h2 : 0 ≤ e.y) (hpast : ¬ ry * ry * e.x < rx * rx * e.y) {l : List Pixel}
    (hl : l = lowerWalk rx ry e ++ tipCompletion ((lowerWalk rx ry e).getLast?.getD e).x rx) :
    followsWalk rx ry l ∧ l.head? = some e ∧ l.getLast? = some { x := rx, y := 0 } := by
  obtain ⟨⟨xl, -⟩, hlast, rfl⟩ := lowerWalk_last_row (rx := rx) (ry := ry) h2
  obtain ⟨hxl, -, hle, -⟩ := lowerWalk_bounds hx hy h1 h2 (List.mem_of_getLast? hlast)
  rw [hlast, Option.getD_some] at hl
  subst hl
  have hhead : (lowerWalk rx ry e).head? = some e := by
    rw [lowerWalk, show (e.y + 1).toNat = e.y.toNat + 1 by omega]
    rfl
  exact ⟨followsWalk_append_tip (h0.trans hxl) (followsWalk_region2 _ _ _ hpast (by omega)) hlast,
    by rw [List.head?_append, hhead, Option.some_or], getLast?_append_tip hle hlast⟩

/-- The quadrant walk goes from `(0, ry)` to `(rx, 0)` by `quadNext` (R107). -/
theorem quadWalk_follows {rx ry : Int} (hx : 1 ≤ rx) (hy : 1 ≤ ry) : followsWalk rx ry (quadWalk rx ry) ∧
    (quadWalk rx ry).head? = some { x := 0, y := ry } ∧ (quadWalk rx ry).getLast? = some { x := rx, y := 0 } := by
  obtain ⟨⟨h0, h1, h2, -, -⟩, -, -⟩ := region1_bounds hx (region1Fuel rx ry) 0 ry (region1Inv_start hx hy)
  have hpast := region1_exits (rx * rx) (ry * ry) (mul_self_nonneg rx) (by nlinarith) (region1Fuel rx ry) 0 ry le_rfl
    (region1Fuel_enough rx ry (by omega))
  obtain ⟨hchain, hhead, hlast⟩ := lowerWalk_append_tip hx hy h0 h1 h2 hpast rfl
  obtain ⟨one, rfl, hquad⟩ := quadWalk_parts rx ry
  rw [hquad, List.append_assoc]
  exact ⟨followsWalk_region1_append _ _ _ hchain hhead, head?_region1_append hhead,
    by rw [List.getLast?_append, hlast, Option.some_or]⟩

theorem effectiveExtent_of_pos {rx ry : Int} (hx : 1 ≤ rx) (hy : 1 ≤ ry) (e : Int) : effectiveExtent rx ry e = e :=
  if_neg (by omega)

theorem quad_of_pos {rx ry : Int} (hx : 1 ≤ rx) (hy : 1 ≤ ry) : quad rx ry = quadWalk rx ry := if_neg (by omega)

/-- A list that never falls by more than one row holds a point of every row between its ends. -/
theorem exists_mem_row {l : List Pixel} (hl : l.IsChain fun p q => p.y ≤ q.y + 1) {first last : Pixel}
    (hfirst : l.head? = some first) (hlast : l.getLast? = some last) {j : Int} (h0 : last.y ≤ j) (h1 : j ≤ first.y) :
    ∃ p ∈ l, p.y = j := by
  induction l generalizing first with
  | nil => exact nomatch hfirst
  | cons p l ih =>
    obtain rfl : p = first := Option.some.inj hfirst
    by_cases hj : p.y = j
    · exact ⟨p, List.mem_cons_self, hj⟩
    · cases l with
      | nil =>
        obtain rfl : p = last := Option.some.inj hlast
        omega
      | cons q l =>
        obtain ⟨hpq, hrest⟩ := List.isChain_cons_cons.1 hl
        obtain ⟨r, hr, hrj⟩ := ih hrest rfl (by rwa [List.getLast?_cons_cons] at hlast) (by omega)
        exact ⟨r, List.mem_cons_of_mem _ hr, hrj⟩

/-- Every row from 0 to `ry` has a point of the walk (R110 (c)). -/
theorem exists_mem_quad {rx ry j : Int} (hx : 1 ≤ rx) (hy : 1 ≤ ry) (h0 : 0 ≤ j) (hj : j ≤ ry) :
    ∃ p ∈ quad rx ry, p.y = j := by
  obtain ⟨hchain, hfirst, hlast⟩ := quadWalk_follows hx hy
  have hbox := (quadWalk_spec hx hy).2.1
  rw [quad_of_pos hx hy]
  refine exists_mem_row (hchain.imp_of_mem_imp fun p q hp _ hq => ?_) hfirst hlast h0 hj
  obtain ⟨hpx, -, hpy, -⟩ := hbox p hp
  obtain ⟨-, -, -, hrow, -⟩ := quadNext_bounds rx ry hpx hpy
  exact hq ▸ hrow

/-! ### The outline (R109, R110) -/

/-- The quadrant point that a pixel is a mirror image of, around the centre `(cx, cy)` (R109). -/
def quadrantOf (cx cy : Int) (q : Pixel) : Pixel := { x := (q.x - cx).natAbs, y := (q.y - cy).natAbs }

theorem quadrantOf_of_mem_plot4 {cx cy : Int} {p q : Pixel} (hx : 0 ≤ p.x) (hy : 0 ≤ p.y) (hq : q ∈ plot4 cx cy p) :
    quadrantOf cx cy q = p := by
  obtain ⟨hqx, hqy⟩ := mem_plot4 hx hy hq
  rw [quadrantOf, hqx, hqy, Int.toNat_of_nonneg hx, Int.toNat_of_nonneg hy]

theorem mem_plot4_quadrantOf (cx cy : Int) (q : Pixel) : q ∈ plot4 cx cy (quadrantOf cx cy q) := by
  obtain ⟨u, v⟩ := q
  simp only [plot4, quadrantOf, mem_firstOccurrences, List.mem_cons, List.not_mem_nil, or_false, Pixel.mk.injEq]
  omega

/-- The outline is the quadrant walk's mirror images, and nothing else, around any centre (R109). -/
theorem mem_seqEllipse {cx cy rx ry : Int} (hx : 0 ≤ rx) (hy : 0 ≤ ry) {q : Pixel} :
    q ∈ seqEllipse cx cy rx ry ↔ quadrantOf cx cy q ∈ quad rx ry := by
  refine List.mem_flatMap.trans ⟨?_, fun h => ⟨_, h, mem_plot4_quadrantOf cx cy q⟩⟩
  rintro ⟨p, hp, hq⟩
  obtain ⟨h0, -, h1, -⟩ := (quad_spec hx hy).2.1 p hp
  rwa [quadrantOf_of_mem_plot4 h0 h1 hq]

theorem mem_seqEllipse_congr {cx cy cx' cy' rx ry : Int} (hx : 0 ≤ rx) (hy : 0 ≤ ry) {q q' : Pixel}
    (h : quadrantOf cx cy q = quadrantOf cx' cy' q') : q ∈ seqEllipse cx cy rx ry ↔ q' ∈ seqEllipse cx' cy' rx ry := by
  rw [mem_seqEllipse hx hy, mem_seqEllipse hx hy, h]

theorem quadrantOf_translate (cx cy x y : Int) :
    quadrantOf cx cy { x := cx + x, y := cy + y } = quadrantOf 0 0 { x := x, y := y } := by
  simp only [quadrantOf, add_sub_cancel_left, sub_zero]

/-! ### The filled ellipse (R111, R112) -/

theorem mem_seqEllipseFilled {cx cy rx ry : Int} {p : Pixel} : p ∈ seqEllipseFilled cx cy rx ry ↔
    (-effectiveExtent rx ry ry ≤ p.y - cy ∧ p.y - cy ≤ effectiveExtent rx ry ry) ∧
    -rowMax (quad rx ry) ((p.y - cy).natAbs : Int) ≤ p.x - cx ∧
      p.x - cx ≤ rowMax (quad rx ry) ((p.y - cy).natAbs : Int) := mem_spanFill

/-- R112 (b). -/
theorem mem_seqEllipseFilled_of_mem_seqEllipse {rx ry : Int} (hx : 0 ≤ rx) (hy : 0 ≤ ry) {p : Pixel}
    (hp : p ∈ seqEllipse 0 0 rx ry) : p ∈ seqEllipseFilled 0 0 rx ry := by
  obtain ⟨-, -, h1, h2⟩ := seqEllipse_inBox hx hy hp
  have hmax := le_rowMax ((mem_seqEllipse hx hy).1 hp)
  simp only [quadrantOf] at hmax
  exact mem_seqEllipseFilled.2 ⟨⟨by omega, by omega⟩, by omega, by omega⟩

/-- `XE(j)` is a point of the walk (R111). -/
theorem rowMax_quad_mem {rx ry j : Int} (hx : 1 ≤ rx) (hy : 1 ≤ ry) (h0 : 0 ≤ j) (hj : j ≤ ry) :
    { x := rowMax (quad rx ry) j, y := j } ∈ quad rx ry := by
  obtain ⟨p, hp, rfl⟩ := exists_mem_quad hx hy h0 hj
  exact rowMax_mem ((quad_spec (by omega) (by omega)).2.1 p hp).1 hp

/-- R112 (c): a row of the filled ellipse is the segment between two pixels of the outline. -/
theorem seqEllipseFilled_row {rx ry : Int} (hx : 1 ≤ rx) (hy : 1 ≤ ry) {p : Pixel} (hp : p ∈ seqEllipseFilled 0 0 rx ry) :
    ∃ m : Int, p.x.natAbs ≤ m ∧ { x := m, y := p.y } ∈ seqEllipse 0 0 rx ry ∧
      { x := -m, y := p.y } ∈ seqEllipse 0 0 rx ry ∧
      ∀ x : Int, { x := x, y := p.y } ∈ seqEllipseFilled 0 0 rx ry ↔ -m ≤ x ∧ x ≤ m := by
  obtain ⟨hrow, hseg⟩ := mem_seqEllipseFilled.1 hp
  rw [sub_zero] at hrow hseg
  rw [sub_zero] at hseg
  have hend := rowMax_quad_mem hx hy (j := p.y.natAbs) (by omega)
    (by rw [effectiveExtent_of_pos hx hy] at hrow; omega)
  have hm := rowMax_nonneg (quad rx ry) p.y.natAbs
  refine ⟨rowMax (quad rx ry) p.y.natAbs, by omega, (mem_seqEllipse (by omega) (by omega)).2 ?_,
    (mem_seqEllipse (by omega) (by omega)).2 ?_, fun x => ?_⟩
  · simpa only [quadrantOf, sub_zero, Int.natAbs_of_nonneg hm] using hend
  · simpa only [quadrantOf, sub_zero, Int.natAbs_neg, Int.natAbs_of_nonneg hm] using hend
  · simp only [mem_seqEllipseFilled, sub_zero, hrow, true_and, and_self]

theorem mem_seqEllipseFilled_translate (cx cy x y rx ry : Int) :
    { x := cx + x, y := cy + y } ∈ seqEllipseFilled cx cy rx ry ↔ { x := x, y := y } ∈ seqEllipseFilled 0 0 rx ry := by
  simp only [mem_seqEllipseFilled, add_sub_cancel_left, sub_zero]

end Sys2Proof.Machine

namespace Sys2Proof.Claims

open Sys2Proof.Machine

/-- Settles O47: the walk is `quadNext` again and again, a pixel is in the outline just when its quadrant point is in the walk, and
a filled row ends at the outermost points of the walk in that row. -/
theorem ellipseBoundingBoxIsExact : Obligations.EllipseBoundingBoxIsExact := by
  intro rx ry hx hy
  have hx0 : 0 ≤ rx := by omega
  have hy0 : 0 ≤ ry := by omega
  obtain ⟨hchain, hfirst, hlast⟩ := quadWalk_follows hx hy
  have hbox := (quadWalk_spec hx hy).2.1
  have htips := holdsTips_seqEllipse (cx := 0) (cy := 0) hx0 hy0
  simp only [holdsTips, effectiveExtent_of_pos hx hy, zero_add] at htips
  obtain ⟨⟨-, hright⟩, -, hhigh⟩ := htips
  rw [← quad_of_pos hx hy] at hchain hfirst hlast hbox
  refine ⟨⟨hfirst, hlast, fun n p q hp hq => ?_⟩, fun x y => ?_, fun p hp => ?_, hright, hhigh, fun p hp => ?_,
    fun cx cy x y => ⟨mem_seqEllipse_congr hx0 hy0 (quadrantOf_translate ..), mem_seqEllipseFilled_translate ..⟩⟩
  · obtain ⟨hn, rfl⟩ := List.getElem?_eq_some_iff.1 hq
    obtain ⟨-, rfl⟩ := List.getElem?_eq_some_iff.1 hp
    obtain ⟨hpx, -, hpy, -⟩ := hbox _ (List.getElem_mem (Nat.lt_of_succ_lt hn))
    rw [hchain.getElem n hn, ← ellipseF1_eq_sq, ← ellipseF2_eq_sq]
    exact ⟨quadNext_bounds rx ry hpx hpy, quadNext_decisions rx ry hpx hpy⟩
  · simp only [mem_seqEllipse hx0 hy0, quadrantOf, sub_zero]
  · obtain ⟨hl, hr, hd, hu⟩ := seqEllipse_inBox hx0 hy0 hp
    rw [effectiveExtent_of_pos hx hy] at hl hr hd hu
    refine ⟨by omega, by omega, (mem_seqEllipse_congr hx0 hy0 ?_).2 hp, (mem_seqEllipse_congr hx0 hy0 ?_).2 hp,
      mem_seqEllipseFilled_of_mem_seqEllipse hx0 hy0 hp⟩
    · simp [quadrantOf]
    · simp [quadrantOf]
  · obtain ⟨hl, hr, hd, hu⟩ := seqEllipseFilled_inBox hx0 hy0 hp
    rw [effectiveExtent_of_pos hx hy] at hl hr hd hu
    exact ⟨by omega, by omega, seqEllipseFilled_row hx hy hp⟩

end Sys2Proof.Claims
end

section
/-! # The two rectangles (R120 to R124) -/

namespace Sys2Proof.Machine

/-! ### Lengths (R124 (b)) -/

@[simp] theorem span_length (lo hi : Int) : (span lo hi).length = (hi - lo + 1).toNat := by
  rw [span_eq, List.length_map, List.length_range]

/-- The four parts of the outline: two rows of `w` pixels and two columns of `h - 2`, where a second row needs a height and
a second column a width above 1. -/
theorem rectOutline_length {xa ya xb yb : Int} {w h : Nat} (hw : w = (xb - xa + 1).toNat) (hh : h = (yb - ya + 1).toNat) :
    (rectOutline xa ya xb yb).length =
      w + (if 1 < h then w else 0) + (h - 2) + (if 1 < w then h - 2 else 0) := by
  have hinner : (yb - 1 - (ya + 1) + 1).toNat = h - 2 := by omega
  have hrow : yb > ya ↔ 1 < h := by omega
  have hcolumn : xb > xa ↔ 1 < w := by omega
  simp only [rectOutline, List.length_append, apply_ite List.length, List.length_map, List.length_nil, span_length, hinner,
    hrow, hcolumn, hw]

/-- The four parts together: a rectangle of one or two rows or columns has only outline pixels. -/
theorem outline_count {w h : Nat} (hw : 1 ≤ w) (hh : 1 ≤ h) :
    w + (if 1 < h then w else 0) + (h - 2) + (if 1 < w then h - 2 else 0) =
      if w ≤ 2 ∨ h ≤ 2 then w * h else 2 * w + 2 * h - 4 := by
  by_cases hthin : w ≤ 2 ∨ h ≤ 2
  · rw [if_pos hthin]
    obtain rfl | rfl | rfl | rfl : w = 1 ∨ w = 2 ∨ h = 1 ∨ h = 2 := by omega
    all_goals split_ifs <;> omega
  · rw [if_neg hthin, if_pos (by omega), if_pos (by omega)]
    omega

theorem seqRectFilled_length (x1 y1 x2 y2 : Int) :
    (seqRectFilled x1 y1 x2 y2).length = (max x1 x2 - min x1 x2 + 1).toNat * (max y1 y2 - min y1 y2 + 1).toNat := by
  simp [seqRectFilled, List.length_flatMap, mul_comm]

/-! ### The order of the corners (R124 (c)) -/

/-- The corners count only by the smaller and the greater of each coordinate (R120). -/
theorem seqRect_congr {x1 y1 x2 y2 x1' y1' x2' y2' : Int} (hx : min x1 x2 = min x1' x2' ∧ max x1 x2 = max x1' x2')
    (hy : min y1 y2 = min y1' y2' ∧ max y1 y2 = max y1' y2') :
    seqRect x1 y1 x2 y2 = seqRect x1' y1' x2' y2' ∧ seqRectFilled x1 y1 x2 y2 = seqRectFilled x1' y1' x2' y2' := by
  simp only [seqRect, seqRectFilled, hx, hy, and_self]

/-! ### The pixels of the outline (R122) -/

/-- The first and the last column of an outline are written whole: inner pixels as columns, the ends with the rows. -/
theorem mem_rectOutline_of_column {xa ya xb yb x y : Int} (hle : xa ≤ xb) (hy : ya ≤ y ∧ y ≤ yb) (hx : x = xa ∨ x = xb) :
    { x := x, y := y } ∈ rectOutline xa ya xb yb := by
  by_cases hend : y = ya ∨ y = yb
  · exact mem_rectOutline_of_row (by omega) (by omega) hend
  have hcolumn (x' : Int) : { x := x', y := y } ∈ (span (ya + 1) (yb - 1)).map fun y => ({ x := x', y := y } : Pixel) :=
    List.mem_map.2 ⟨y, mem_span.2 (by omega), rfl⟩
  by_cases hfirst : x = xa
  · exact List.mem_append_left _ (List.mem_append_right _ (hfirst ▸ hcolumn x))
  · have hlast : x = xb := hx.resolve_left hfirst
    exact List.mem_append_right _ (by rw [if_pos (by omega), ← hlast]; exact hcolumn x)

/-- What the outline writes lies in an outer row or column. -/
theorem mem_rectOutline_outer {xa ya xb yb : Int} {p : Pixel} (hp : p ∈ rectOutline xa ya xb yb) :
    p.x = xa ∨ p.x = xb ∨ p.y = ya ∨ p.y = yb := by
  simp only [rectOutline, List.mem_append, List.mem_map, List.mem_ite_nil_right] at hp
  rcases hp with ((⟨x, -, rfl⟩ | ⟨-, x, -, rfl⟩) | ⟨y, -, rfl⟩) | ⟨-, y, -, rfl⟩ <;> simp

theorem mem_seqRect {x1 y1 x2 y2 : Int} {p : Pixel} :
    p ∈ seqRect x1 y1 x2 y2 ↔ p.inBox (min x1 x2) (min y1 y2) (max x1 x2) (max y1 y2) ∧
      (p.x = min x1 x2 ∨ p.x = max x1 x2 ∨ p.y = min y1 y2 ∨ p.y = max y1 y2) := by
  refine ⟨fun hp => ⟨seqRect_inBox hp, mem_rectOutline_outer hp⟩, ?_⟩
  rintro ⟨⟨hl, hr, hd, hu⟩, houter⟩
  rcases or_assoc.2 houter with hcolumn | hrow
  · exact mem_rectOutline_of_column min_le_max ⟨hd, hu⟩ hcolumn
  · exact mem_rectOutline_of_row ⟨hl, hr⟩ min_le_max hrow

/-- R124 (d): with one or two rows or columns, every pixel of the box is in an outer one. -/
theorem mem_seqRect_of_thin {x1 y1 x2 y2 : Int} {p : Pixel}
    (hthin : (max x1 x2 - min x1 x2 + 1).toNat ≤ 2 ∨ (max y1 y2 - min y1 y2 + 1).toNat ≤ 2)
    (hp : p ∈ seqRectFilled x1 y1 x2 y2) : p ∈ seqRect x1 y1 x2 y2 := by
  have hbox := mem_seqRectFilled.1 hp
  refine mem_seqRect.2 ⟨hbox, ?_⟩
  unfold Pixel.inBox at hbox
  omega

/-! ### The outline as four lines (R124 (f)) -/

/-- A line along an axis is a filled rectangle of one row or column: it stays in the box of its ends, repeats no pixel, and is
as long as the box (R80). -/
theorem seqLine_perm_seqRectFilled {x1 y1 x2 y2 : Int} (haxis : x1 = x2 ∨ y1 = y2) :
    (seqLine x1 y1 x2 y2).Perm (seqRectFilled x1 y1 x2 y2) := by
  have hsub : seqLine x1 y1 x2 y2 ⊆ seqRectFilled x1 y1 x2 y2 := fun p hp => mem_seqRectFilled.2 (seqLine_inBox hp)
  refine ((seqLine_nodup ..).subperm hsub).perm_of_length_le (le_of_eq ?_)
  rw [seqRectFilled_length, seqLine_length]
  rcases haxis with rfl | rfl
  · simp only [min_self, max_self, sub_self, zero_add, Int.toNat_one, one_mul]
    omega
  · simp only [min_self, max_self, sub_self, zero_add, Int.toNat_one, mul_one]
    omega

theorem mem_seqLine_axis {x1 y1 x2 y2 : Int} (haxis : x1 = x2 ∨ y1 = y2) {p : Pixel} :
    p ∈ seqLine x1 y1 x2 y2 ↔ p.inBox (min x1 x2) (min y1 y2) (max x1 x2) (max y1 y2) :=
  (seqLine_perm_seqRectFilled haxis).mem_iff.trans mem_seqRectFilled

theorem mem_seqRect_iff_lines {x1 y1 x2 y2 xa xb ya yb : Int} (hxa : xa = min x1 x2) (hxb : xb = max x1 x2)
    (hya : ya = min y1 y2) (hyb : yb = max y1 y2) {p : Pixel} :
    p ∈ seqRect x1 y1 x2 y2 ↔
      p ∈ seqLine xa ya xb ya ∨ p ∈ seqLine xa yb xb yb ∨ p ∈ seqLine xa ya xa yb ∨ p ∈ seqLine xb ya xb yb := by
  rw [mem_seqRect, mem_seqLine_axis (.inr rfl), mem_seqLine_axis (.inr rfl), mem_seqLine_axis (.inl rfl),
    mem_seqLine_axis (.inl rfl)]
  unfold Pixel.inBox
  omega

end Sys2Proof.Machine

namespace Sys2Proof.Claims

open Sys2Proof.Machine

/-- Settles O42, by the membership lemmas of the two sequences. -/
theorem rectanglesPaintTheirSets : Obligations.RectanglesPaintTheirSets := fun _ _ _ _ _ =>
  ⟨mem_seqRectFilled, mem_seqRect.trans (by simp only [Pixel.inBox, and_assoc])⟩

/-- Settles O43: (d) to (f) follow from the sets of O42, the rest from the shape of the two lists. -/
theorem rectangleSequenceProperties : Obligations.RectangleSequenceProperties := by
  rintro x1 y1 x2 y2 _ _ _ _ w h rfl rfl rfl rfl hw hh
  have hlength := (rectOutline_length hw hh).trans (outline_count (by omega) (by omega))
  obtain ⟨hswap, hswapFilled⟩ := seqRect_congr (x1 := x2) (y1 := y2) (x2 := x1) (y2 := y1)
    ⟨min_comm .., max_comm ..⟩ ⟨min_comm .., max_comm ..⟩
  obtain ⟨hother, hotherFilled⟩ := seqRect_congr (x1 := x1) (y1 := y2) (x2 := x2) (y2 := y1)
    ⟨rfl, rfl⟩ ⟨min_comm .., max_comm ..⟩
  refine ⟨⟨rectOutline_nodup .., seqRectFilled_nodup ..⟩, ⟨hlength, ?_⟩, ⟨hswap, hother, hswapFilled, hotherFilled⟩,
    ⟨fun p hp => mem_seqRectFilled.2 (seqRect_inBox hp), fun x y hx hy => ?_, fun hthin p => ?_⟩,
    fun p => mem_seqRectFilled.1, fun p => mem_seqRect_iff_lines rfl rfl rfl rfl⟩
  · rw [seqRectFilled_length, hw, hh]
  · exact mem_rectOutline_of_row (by omega) min_le_max hy
  · rw [hw, hh] at hthin
    exact mem_seqRect_of_thin hthin

end Sys2Proof.Claims
end

section
/-! # The transfers of unit RDV

An accepted command is in flight: each answer to its outstanding request is one step, and moves it to the next request, to its
finish or to `BusError` (R132, R133). -/

namespace Sys2Proof.Machine

open Sys2Proof.Claims

/-! ### The accept step (R132) -/

/-- Every well-formed RDV command is accepted by an idle unit, with its own first transfer. -/
theorem exec_rdv_idle {i : Instr} {v : Word} {s : State} (hidle : rdvIdle s) (hw : i.wellFormed = true)
    (hv : encode i = .rdv v) : exec i s = .next (requested v (firstTransfer i) s) :=
  (exec_rdv s hw hv).trans (congrArg _ (rdvIssue_ready v _ s hidle.1 hidle.2))

/-! ### A short answer (R133, R174) -/

/-- A response to a write, in every phase that has one: the count is compared with the length of the outstanding transfer, and
only the second write of `RDPAIR` is recorded with `SUB`. -/
theorem rdvResponse_count {i : Instr} {ph : Phase} {sent : List Byte} (hp : phaseFits i ph = true)
    (hq : outstandingRequest i ph = .write sent) (k : Nat) (s : State) :
    ∃ next, rdvResponse i ph (.count k) s = .next (afterWrite sent.length (decide (ph = .w2)) k next s) :=
  match i, ph, hp, hq with
  | .rdbyte _ _, .w1, _, rfl => ⟨_, rfl⟩
  | .wrbyte _ _, .w1, _, rfl => ⟨_, rfl⟩
  | .rdpair _ _, .w1, _, rfl => ⟨_, rfl⟩
  | .rdpair _ _, .w2, _, rfl => ⟨_, rfl⟩
  | .rdblock _ _, .w1, _, rfl => ⟨_, rfl⟩

/-- A response to a read, in every phase that has one. -/
theorem rdvResponse_bytes {i : Instr} {ph : Phase} {n : Nat} (hp : phaseFits i ph = true)
    (hq : outstandingRequest i ph = .read n) (bs : List Byte) (s : State) :
    ∃ next, rdvResponse i ph (.bytes bs) s = .next (afterRead n (decide (ph = .r2)) bs next s) :=
  match i, ph, hp, hq with
  | .rdbyte _ _, .r1, _, rfl => ⟨_, rfl⟩
  | .rdpair _ _, .r1, _, rfl => ⟨_, rfl⟩
  | .rdpair _ _, .r2, _, rfl => ⟨_, rfl⟩
  | .rdblock _ _, .r1, _, rfl => ⟨_, rfl⟩

theorem rdvResponse_short_count {i : Instr} {ph : Phase} {sent : List Byte} {k : Nat} (hp : phaseFits i ph = true)
    (hq : outstandingRequest i ph = .write sent) (hk : k < sent.length) (s : State) :
    rdvResponse i ph (.count k) s =
      .next { s with rdv := rdvBusError sent.length k false (decide (ph = .w2)) s.rdv } := by
  obtain ⟨next, h⟩ := rdvResponse_count hp hq k s
  rw [h, afterWrite, if_neg hk.ne]

theorem rdvResponse_short_bytes {i : Instr} {ph : Phase} {n : Nat} {bs : List Byte} (hp : phaseFits i ph = true)
    (hq : outstandingRequest i ph = .read n) (hl : bs.length < n) (s : State) :
    rdvResponse i ph (.bytes bs) s =
      .next { s with rdv := rdvBusError n bs.length true (decide (ph = .r2)) s.rdv } := by
  obtain ⟨next, h⟩ := rdvResponse_bytes hp hq bs s
  rw [h, afterRead, if_neg hl.ne]

/-! ### A command in flight -/

/-- `s` with the command word `v` in flight in the phase `ph`, the requests `issued` since its accept step, the byte `lo` kept,
and the schedule `script`. -/
def inFlight (v : Word) (ph : Phase) (lo : Byte) (issued : List BusRequest) (script : List Event) (s : State) : State :=
  { s with
    script := script
    rdv := { s.rdv with lrc := v, done := false, busy := true, ph := some ph, lo := lo }
    bus := { trace := s.bus.trace ++ issued } }

/-- The accept step puts the command in flight in its first phase. -/
theorem requested_inFlight (v : Word) (w1 : List Byte) (script : List Event) (s : State) :
    { requested v w1 s with script := script } = inFlight v .w1 s.rdv.lo [.write w1] script s := rfl

theorem rdvRequest_inFlight (v : Word) (ph ph' : Phase) (q : BusRequest) (lo : Byte) (issued : List BusRequest)
    (script : List Event) (s : State) :
    rdvRequest ph' q (inFlight v ph lo issued script s) = inFlight v ph' lo (issued ++ [q]) script s := by
  simp only [rdvRequest, inFlight, Bus.issue, List.append_assoc]

section
variable {v : Word} {i : Instr} {ph : Phase} {lo : Byte} {a : BusAnswer} {q : BusRequest} {rest : List Event} {s : State}

/-- The answer to the last request issued is the response step of the command. -/
theorem step_inFlight (before : List BusRequest) (hi : decodeRdv v = .ok i) (hf : BusAnswer.fits q a = true) :
    step (inFlight v ph lo (before ++ [q]) (.busAnswer (s.bus.trace.length + before.length) a :: rest) s) =
      rdvResponse i ph a (inFlight v ph lo (before ++ [q]) rest s) :=
  step_busAnswer rfl rfl (List.append_assoc ..).symm List.length_append.symm hf rfl hi

/-- A response that makes the next request leaves the command in flight, in the phase of that request. -/
theorem step_inFlight_request {ph' : Phase} {lo' : Byte} {q' : BusRequest} (before : List BusRequest)
    (hi : decodeRdv v = .ok i) (hf : BusAnswer.fits q a = true)
    (hr : rdvResponse i ph a (inFlight v ph lo (before ++ [q]) rest s) =
      .next (rdvRequest ph' q' (inFlight v ph lo' (before ++ [q]) rest s))) :
    step (inFlight v ph lo (before ++ [q]) (.busAnswer (s.bus.trace.length + before.length) a :: rest) s) =
      .next (inFlight v ph' lo' (before ++ [q] ++ [q']) rest s) := by
  rw [step_inFlight before hi hf, hr, rdvRequest_inFlight]

end

/-! ### The result of `RDPAIR` (R136) -/

/-- `low | (high << 8)` is the two bytes side by side. -/
theorem or_shiftLeft_eq_append (lo hi : Byte) : lo.setWidth 16 ||| (hi.setWidth 16 <<< 8) = hi ++ lo := by
  rw [BitVec.or_comm, BitVec.append_def]
  simp [BitVec.shiftLeftZeroExtend_eq, BitVec.setWidth'_eq]

/-- R137: the second address is taken modulo 256. -/
theorem rdpairWrite2_eq (lowAddr : Byte) : rdpairWrite2 lowAddr = [0x80 ||| BitVec.ofNat 8 (lowAddr.toNat + 1)] := by
  rw [BitVec.ofNat_add, BitVec.ofNat_toNat, BitVec.setWidth_eq]
  rfl

end Sys2Proof.Machine

namespace Sys2Proof.Claims

open Sys2Proof.Machine

/-- Settles O17: one accept step for the four commands, each with its first transfer. -/
theorem rdvCommandsAreAccepted : Obligations.RdvCommandsAreAccepted := fun _ _ _ _ hidle =>
  ⟨exec_rdv_idle hidle rfl, exec_rdv_idle hidle rfl, exec_rdv_idle hidle rfl,
    fun h1 h2 => exec_rdv_idle hidle (rdblock_wellFormed_iff.2 ⟨h1, h2⟩)⟩

/-- Settles O18: the accept step, the answer to the write, the answer to the read. -/
theorem readByteTransaction : Obligations.ReadByteTransaction := by
  intro addr opd b v s hidle hv
  have hi : decodeRdv v = .ok (.rdbyte addr opd) := decodeRdv_of_encode rfl hv
  refine ⟨_, rdvFinishData (b.setWidth 16) (inFlight v .r1 s.rdv.lo [.write (rdbyteWrite addr), .read 1] [] s),
    exec_rdv_idle hidle rfl hv, ?_, rfl, rfl, rfl, rfl⟩
  rw [requested_inFlight]
  exact runSteps_two (step_inFlight_request [] hi rfl rfl) (step_inFlight [_] hi rfl)

/-- Settles O19: the accept step and the answer to the one write. -/
theorem writeByteTransaction : Obligations.WriteByteTransaction := by
  intro addr value v s hidle hv
  have hi : decodeRdv v = .ok (.wrbyte addr value) := decodeRdv_of_encode rfl hv
  refine ⟨_, { s with
      script := []
      rdv := rdvFinish { s.rdv with lrc := v }
      bus := { trace := s.bus.trace ++ [.write (wrbyteWrite addr value)] } },
    exec_rdv_idle hidle rfl hv, ?_, rfl, rfl, rfl, rfl⟩
  rw [requested_inFlight]
  exact (runSteps_one _).trans (step_inFlight [] hi rfl)

/-- Settles O20: the accept step and the four answers; the first byte is kept while the second is read. -/
theorem readPairTransaction : Obligations.ReadPairTransaction := by
  intro lowAddr opd lo hi v s hidle hv
  have hdec : decodeRdv v = .ok (.rdpair lowAddr opd) := decodeRdv_of_encode rfl hv
  rw [← or_shiftLeft_eq_append, ← rdpairWrite2_eq]
  refine ⟨_, rdvFinishData (lo.setWidth 16 ||| (hi.setWidth 16 <<< 8)) (inFlight v .r2 lo
    [.write (rdpairWrite lowAddr), .read 1, .write (rdpairWrite2 lowAddr), .read 1] [] s),
    exec_rdv_idle hidle rfl hv, ?_, rfl, rfl, rfl, rfl⟩
  rw [requested_inFlight]
  exact (runSteps_succ (step_inFlight_request [] hdec rfl rfl)).trans <|
    (runSteps_succ (step_inFlight_request [_] hdec rfl rfl)).trans <|
    runSteps_two (step_inFlight_request [_, _] hdec rfl rfl) (step_inFlight [_, _, _] hdec rfl)

/-- Settles O22: the answer is the response step of the command in flight, which finds it short. -/
theorem shortTransferIsBusError : Obligations.ShortTransferIsBusError := by
  intro i ph s rest hb hi hph hp hlast
  obtain ⟨before, ht⟩ := List.getLast?_eq_some_iff.1 hlast
  have hn : s.bus.trace.length - 1 = before.length := by simp [ht]
  refine ⟨fun sent k hq hk hs => ?_, fun n bs hq hl hs => ?_⟩
  · have hf : BusAnswer.fits (outstandingRequest i ph) (.count k) = true := by simp [hq, BusAnswer.fits, hk.le]
    rw [step_busAnswer hs hb ht hn hf hph hi, rdvResponse_short_count hp hq hk]
    rfl
  · have hf : BusAnswer.fits (outstandingRequest i ph) (.bytes bs) = true := by simp [hq, BusAnswer.fits, hl.le]
    rw [step_busAnswer hs hb ht hn hf hph hi, rdvResponse_short_bytes hp hq hl]
    rfl

end Sys2Proof.Claims
end

section
/-! # The sensor sequences

`WAIT RDV` hands each answer to the command in flight (R66, R133), so that a command of a sequence over full transfers comes to
its finish; the sequence then reads its result registers (R155). -/

namespace Sys2Proof.Machine

open Sys2Proof.Claims

/-! ### `WAIT RDV` over a command in flight -/

/-- `s` after a `HostRead` of `RDV_STATUS`. -/
def polled (s : State) : State := { s with readData := hostRead .rdv (off 0x00) s }

/-- `s` with the `RDV_STATUS` of a command in flight as the value last read. -/
def polledBusy (s : State) : State := { s with readData := statusWord true false s.rdv.err s.rdv.ovr }

theorem polled_inFlight (v : Word) (ph : Phase) (lo : Byte) (issued : List BusRequest) (script : List Event) (s : State) :
    polled (inFlight v ph lo issued script s) = inFlight v ph lo issued script (polledBusy s) := rfl

theorem waitRdv_idle {answers : List BusAnswer} {s : State} (hb : s.rdv.busy = false) :
    waitRdv answers s = .next { state := polled s, answers := answers, busy := false } := by
  have hpoll : pollBusy .rdv s = .next (polled s, false) := hb ▸ pollBusy_eq .rdv s
  cases answers <;> simp only [waitRdv, hpoll]

/-- While `BUSY` = 1 the next answer of the provider is one to the last request issued. -/
theorem waitRdv_inFlight {v : Word} {ph : Phase} {lo : Byte} {before : List BusRequest} {q : BusRequest} {a : BusAnswer}
    {answers : List BusAnswer} {script : List Event} {s u : State}
    (hstep : step (inFlight v ph lo (before ++ [q]) (.busAnswer (s.bus.trace.length + before.length) a :: script)
      (polledBusy s)) = .next u) :
    waitRdv (a :: answers) (inFlight v ph lo (before ++ [q]) script s) = waitRdv answers u := by
  have hpoll : pollBusy .rdv (inFlight v ph lo (before ++ [q]) script s) =
      .next (inFlight v ph lo (before ++ [q]) script (polledBusy s), true) := by
    rw [pollBusy_eq, ← polled_inFlight]
    rfl
  have hn : (inFlight v ph lo (before ++ [q]) script (polledBusy s)).bus.trace.length - 1 =
      s.bus.trace.length + before.length := by
    simp [inFlight, polledBusy]
  have hact : act (.busAnswer (s.bus.trace.length + before.length) a)
      (inFlight v ph lo (before ++ [q]) script (polledBusy s)) = .next u := hstep
  simp only [waitRdv, hpoll, hn, hact]

/-! ### A command of a sequence (R155) -/

theorem sensorRead_eq {α : Type} (b : Nat) (answers : List BusAnswer) (s : State) (next : Word → State → SensorRun α) :
    sensorRead b answers s next =
      next (hostRead .rdv (off b) s) { s with readData := hostRead .rdv (off b) s } := rfl

/-- `ERR` is bit 2 of `STATUS` (R27). -/
theorem hostRead_status_err (s : State) : (hostRead .rdv (off 0x00) s).getLsbD 2 = s.rdv.err := by
  show (statusWord s.rdv.busy s.rdv.done s.rdv.err s.rdv.ovr).getLsbD 2 = s.rdv.err
  cases s.rdv.busy <;> cases s.rdv.done <;> cases s.rdv.err <;> cases s.rdv.ovr <;> decide

/-- The command word `v` with these answers takes a sequence from `s` to `u`: it issues the requests `issued` and finishes
without a fault. -/
structure CommandRuns (v : Word) (answers : List BusAnswer) (issued : List BusRequest) (s u : State) : Prop where
  run : ∀ {α : Type} (rest : List BusAnswer) (next : State → List BusAnswer → SensorRun α),
    sensorCommand v (answers ++ rest) s next = next u rest
  idle : rdvIdle u
  done : u.rdv.done = true
  trace : u.bus.trace = s.bus.trace ++ issued

/-- An idle unit accepts the command; if the answers bring it to its finish without a fault, the sequence goes on. -/
theorem commandRuns_of_wait {i : Instr} {v : Word} {answers : List BusAnswer} {issued : List BusRequest} {s u : State}
    (hidle : rdvIdle s) (hi : decodeRdv v = .ok i)
    (hwait : ∀ rest, waitRdv (answers ++ rest)
      (inFlight v .w1 s.rdv.lo [.write (firstTransfer i)] s.script s) = waitRdv rest u)
    (hu : rdvIdle u) (hdone : u.rdv.done = true) (htrace : u.bus.trace = s.bus.trace ++ issued) :
    CommandRuns v answers issued s (polled u) := by
  refine ⟨fun rest next => ?_, hu, hdone, htrace⟩
  have hwrite : act (.hostWrite .rdv (off 0x10) v) s =
      .next (inFlight v .w1 s.rdv.lo [.write (firstTransfer i)] s.script s) :=
    (rdvCommand_legal hi).trans (exec_rdv_idle hidle (decodeRdv_isRdv v i hi).2 (encode_of_decodeRdv hi))
  have herr : (hostRead .rdv (off 0x00) (polled u)).getLsbD 2 = false := (hostRead_status_err _).trans hu.2
  simp only [sensorCommand, hwrite, hwait, waitRdv_idle hu.1, sensorRead_eq, herr, Bool.false_eq_true, if_false]
  rfl

/-! ### The four commands over full transfers -/

section
variable {s : State}

theorem wrbyte_runs (addr value : Byte) (hidle : rdvIdle s) : ∃ u,
    CommandRuns (rdvWord 0x11 addr value) [.count 2] [.write (wrbyteWrite addr value)] s u := by
  have hi : decodeRdv (rdvWord 0x11 addr value) = .ok (.wrbyte addr value) := decodeRdv_of_encode rfl rfl
  have hwait (rest : List BusAnswer) : waitRdv (.count 2 :: rest)
      (inFlight (rdvWord 0x11 addr value) .w1 s.rdv.lo [.write (wrbyteWrite addr value)] s.script s) =
      waitRdv rest { polledBusy s with
        rdv := rdvFinish { s.rdv with lrc := rdvWord 0x11 addr value }
        bus := { trace := s.bus.trace ++ [.write (wrbyteWrite addr value)] } } :=
    waitRdv_inFlight (before := []) (step_inFlight [] hi rfl)
  exact ⟨_, commandRuns_of_wait hidle hi hwait ⟨rfl, hidle.2⟩ rfl rfl⟩

theorem rdbyte_runs (addr opd b : Byte) (hidle : rdvIdle s) : ∃ u,
    CommandRuns (rdvWord 0x10 addr opd) [.count 1, .bytes [b]] [.write (rdbyteWrite addr), .read 1] s u ∧
    u.rdv.data = b.setWidth 16 := by
  have hi : decodeRdv (rdvWord 0x10 addr opd) = .ok (.rdbyte addr opd) := decodeRdv_of_encode rfl rfl
  have hwait (rest : List BusAnswer) : waitRdv (.count 1 :: .bytes [b] :: rest)
      (inFlight (rdvWord 0x10 addr opd) .w1 s.rdv.lo [.write (rdbyteWrite addr)] s.script s) =
      waitRdv rest (rdvFinishData (b.setWidth 16) (inFlight (rdvWord 0x10 addr opd) .r1 s.rdv.lo
        [.write (rdbyteWrite addr), .read 1] s.script (polledBusy s))) :=
    (waitRdv_inFlight (before := []) (step_inFlight_request [] hi rfl rfl)).trans
      (waitRdv_inFlight (before := [_]) (step_inFlight [_] hi rfl))
  exact ⟨_, commandRuns_of_wait hidle hi hwait ⟨rfl, hidle.2⟩ rfl rfl, rfl⟩

theorem rdpair_runs (lowAddr opd lo hi : Byte) (hidle : rdvIdle s) : ∃ u,
    CommandRuns (rdvWord 0x12 lowAddr opd) [.count 1, .bytes [lo], .count 1, .bytes [hi]]
      [.write (rdpairWrite lowAddr), .read 1, .write (rdpairWrite2 lowAddr), .read 1] s u ∧
    u.rdv.data = hi ++ lo := by
  have hdec : decodeRdv (rdvWord 0x12 lowAddr opd) = .ok (.rdpair lowAddr opd) := decodeRdv_of_encode rfl rfl
  have hwait (rest : List BusAnswer) : waitRdv (.count 1 :: .bytes [lo] :: .count 1 :: .bytes [hi] :: rest)
      (inFlight (rdvWord 0x12 lowAddr opd) .w1 s.rdv.lo [.write (rdpairWrite lowAddr)] s.script s) =
      waitRdv rest (rdvFinishData (lo.setWidth 16 ||| (hi.setWidth 16 <<< 8)) (inFlight (rdvWord 0x12 lowAddr opd) .r2 lo
        [.write (rdpairWrite lowAddr), .read 1, .write (rdpairWrite2 lowAddr), .read 1] s.script (polledBusy s))) :=
    (waitRdv_inFlight (before := []) (step_inFlight_request [] hdec rfl rfl)).trans <|
      (waitRdv_inFlight (before := [_]) (step_inFlight_request [_] hdec rfl rfl)).trans <|
      (waitRdv_inFlight (before := [_, _]) (step_inFlight_request [_, _] hdec rfl rfl)).trans <|
      waitRdv_inFlight (before := [_, _, _]) (step_inFlight [_, _, _] hdec rfl)
  exact ⟨_, commandRuns_of_wait hidle hdec hwait ⟨rfl, hidle.2⟩ rfl rfl, or_shiftLeft_eq_append lo hi⟩

theorem rdblock_runs {addr count : Byte} {bs : List Byte} (h1 : 1 ≤ count.toNat) (h2 : count.toNat ≤ 32)
    (hl : bs.length = count.toNat) (hidle : rdvIdle s) : ∃ u,
    CommandRuns (rdvWord 0x13 addr count) [.count 2, .bytes bs] [.write (rdblockWrite addr count), .read count.toNat] s u ∧
    u.rdv.buf = storeBlock bs s.rdv.buf := by
  have hi : decodeRdv (rdvWord 0x13 addr count) = .ok (.rdblock addr count) := decodeRdv_rdblock h1 h2
  have hfits : BusAnswer.fits (.read count.toNat) (.bytes bs) = true := by simp [BusAnswer.fits, hl]
  have hwait (rest : List BusAnswer) : waitRdv (.count 2 :: .bytes bs :: rest)
      (inFlight (rdvWord 0x13 addr count) .w1 s.rdv.lo [.write (rdblockWrite addr count)] s.script s) =
      waitRdv rest { polledBusy s with
        rdv := rdvFinish { s.rdv with lrc := rdvWord 0x13 addr count, buf := storeBlock bs s.rdv.buf }
        bus := { trace := s.bus.trace ++ [.write (rdblockWrite addr count), .read count.toNat] } } :=
    (waitRdv_inFlight (before := []) (step_inFlight_request [] hi rfl rfl)).trans
      (waitRdv_inFlight (before := [_]) ((step_inFlight [_] hi hfits).trans (congrArg _ (if_pos hl))))
  exact ⟨_, commandRuns_of_wait hidle hi hwait ⟨rfl, hidle.2⟩ rfl rfl, rfl⟩

end

/-! ### What the sequences read -/

/-- The low half of `RDV_DATA` as read is the register (R31). -/
theorem hostRead_data_low (s : State) : (hostRead .rdv (off 0x14) s).extractLsb' 0 16 = s.rdv.data := by
  show (s.rdv.data.setWidth 32).extractLsb' 0 16 = s.rdv.data
  rw [zeros_append (n := 16) (m := 16), extract_low]

/-- A single byte in `RDV_DATA` is the low byte read (R31, R134). -/
theorem hostRead_data_byte {s : State} {b : Byte} (h : s.rdv.data = b.setWidth 16) :
    (hostRead .rdv (off 0x14) s).extractLsb' 0 8 = b := by
  show (s.rdv.data.setWidth 32).extractLsb' 0 8 = b
  have hzeros : (b.setWidth 16).setWidth 32 = (0 : BitVec 24) ++ b := by
    rw [← zeros_append]
    simp
  rw [h, hzeros, extract_low]

section
variable (buf : Vector Byte 32) (n : Fin 8)

/-- The low half of a buffer register is its two lower bytes side by side (R32). -/
theorem bufWord_low : (bufWord buf n).extractLsb' 0 16 = buf[4 * n.val + 1] ++ buf[4 * n.val] := by
  have h1 : (bufWord buf n).extractLsb' 8 8 = buf[4 * n.val + 1] := (extract_high (s := 0) _ _).trans (extract_low _ _)
  have h0 : (bufWord buf n).extractLsb' 0 8 = buf[4 * n.val] := extract_low _ _
  rw [← extract_append (bufWord buf n) 0 8 8, h1, h0]

/-- The high half of a buffer register is its two upper bytes side by side (R32). -/
theorem bufWord_high : (bufWord buf n).extractLsb' 16 16 = buf[4 * n.val + 3] ++ buf[4 * n.val + 2] :=
  (extract_high (s := 8) _ _).trans ((extract_high (s := 0) _ _).trans (extract_all _))

end

/-- R161: the pair `p` of the first two buffer registers is the bytes `2p + 1` and `2p` of the buffer side by side. -/
theorem bufferPair_bufWord (buf : Vector Byte 32) (p : Fin 4) :
    bufferPair (bufWord buf 0) (bufWord buf 1) p = buf[2 * p.val + 1] ++ buf[2 * p.val] :=
  match p with
  | 0 => bufWord_low buf 0
  | 1 => bufWord_high buf 0
  | 2 => bufWord_low buf 1
  | 3 => bufWord_high buf 1

/-- The bytes of a block of eight registers, as `RDBLOCK` leaves them in the buffer (R138). -/
theorem storeBlock_ofFn (d : Fin 8 → Byte) (buf : Vector Byte 32) {j : Nat} (hj : j < 8) :
    (storeBlock (List.ofFn d) buf)[j] = d ⟨j, hj⟩ := by
  have hlt : j < (List.ofFn d).length := by simpa using hj
  exact (storeBlock_getElem (List.ofFn d) buf ⟨j, by omega⟩).trans ((dif_pos hlt).trans (List.getElem_ofFn hlt))

/-- R161: the pair `p` of a block of eight registers. -/
theorem bufferPair_storeBlock (d : Fin 8 → Byte) (buf : Vector Byte 32) (p : Fin 4) :
    bufferPair (bufWord (storeBlock (List.ofFn d) buf) 0) (bufWord (storeBlock (List.ofFn d) buf) 1) p =
      d ⟨2 * p.val + 1, by omega⟩ ++ d ⟨2 * p.val, by omega⟩ := by
  rw [bufferPair_bufWord, storeBlock_ofFn, storeBlock_ofFn]

/-- R159: two bytes side by side are the number of the pair. -/
theorem append_eq_ofNat (hi lo : Byte) : hi ++ lo = BitVec.ofNat 16 (lo.toNat + 256 * hi.toNat) := by
  apply BitVec.eq_of_toNat_eq
  have hlo := lo.isLt
  have hhi := hi.isLt
  rw [BitVec.toNat_append, ← Nat.shiftLeft_add_eq_or_of_lt hlo, Nat.shiftLeft_eq, BitVec.toNat_ofNat]
  omega

/-- R137, R159: the two addresses of a channel's pair, with the flag of a byte access. -/
theorem rdpair_transfers (m : Chmap) (ch : Channel) :
    rdpairWrite (channelAddress m ch) = [BitVec.ofNat 8 (0x90 + 2 * (m.pair ch).val)] ∧
    rdpairWrite2 (channelAddress m ch) = [BitVec.ofNat 8 (0x91 + 2 * (m.pair ch).val)] := by
  unfold channelAddress
  generalize m.pair ch = p
  revert p
  decide

/-! ### The sequences over full transfers -/

/-- The four values of `SENSOR.RDALL` from the values of the channels (R161). -/
def readingOf (value : Channel → BitVec 16) : Reading :=
  { green := value .green, red := value .red, blue := value .blue, clear := value .clear }

/-- R161: the block read gives every channel the two bytes of its pair. -/
theorem sensorRdall_runs (m : Chmap) (d : Fin 8 → Byte) {s : State} (hidle : rdvIdle s) :
    (sensorRdall m [.count 2, .bytes (List.ofFn d)] s).outcome =
      .success (readingOf fun ch => d ⟨2 * (m.pair ch).val + 1, by omega⟩ ++ d ⟨2 * (m.pair ch).val, by omega⟩) ∧
    (sensorRdall m [.count 2, .bytes (List.ofFn d)] s).state.bus.trace =
      s.bus.trace ++ [.write [0xCF, 0x08], .read 8] := by
  obtain ⟨s1, h1, hbuf⟩ := rdblock_runs (addr := datablock) (count := 8) (bs := List.ofFn d) (by decide) (by decide)
    List.length_ofFn hidle
  have hrun : sensorRdall m [.count 2, .bytes (List.ofFn d)] s =
      { outcome := .success (readingOf fun ch => bufferPair (bufWord s1.rdv.buf 0) (bufWord s1.rdv.buf 1) (m.pair ch))
        state := { s1 with readData := bufWord s1.rdv.buf 1 }
        answers := [] } :=
    h1.run _ _
  rw [hrun, hbuf]
  exact ⟨by simp only [bufferPair_storeBlock], h1.trace⟩

/-- R159: the pair read gives the channel the two bytes received. -/
theorem sensorRdchan_runs (m : Chmap) (ch : Channel) (lo hi : Byte) {s : State} (hidle : rdvIdle s) :
    (sensorRdchan m ch [.count 1, .bytes [lo], .count 1, .bytes [hi]] s).outcome = .success (hi ++ lo) ∧
    (sensorRdchan m ch [.count 1, .bytes [lo], .count 1, .bytes [hi]] s).state.bus.trace =
      s.bus.trace ++ [.write [BitVec.ofNat 8 (0x90 + 2 * (m.pair ch).val)], .read 1,
        .write [BitVec.ofNat 8 (0x91 + 2 * (m.pair ch).val)], .read 1] := by
  obtain ⟨s1, h1, hdata⟩ := rdpair_runs (channelAddress m ch) 0 lo hi hidle
  obtain ⟨hlow, hhigh⟩ := rdpair_transfers m ch
  have hrun : sensorRdchan m ch [.count 1, .bytes [lo], .count 1, .bytes [hi]] s =
      { outcome := .success ((hostRead .rdv (off 0x14) s1).extractLsb' 0 16)
        state := { s1 with readData := hostRead .rdv (off 0x14) s1 }
        answers := [] } :=
    h1.run _ _
  rw [hrun, hostRead_data_low, hdata, ← hlow, ← hhigh]
  exact ⟨rfl, h1.trace⟩

end Sys2Proof.Machine

namespace Sys2Proof.Claims

open Sys2Proof.Machine

/-- Settles O58: two writes and one read, each brought to its finish; the byte read decides. -/
theorem sensorInitVerifiesTheEcho : Obligations.SensorInitVerifiesTheEcho := by
  intro sel e s hidle
  obtain ⟨s1, h1⟩ := wrbyte_runs control sel hidle
  obtain ⟨s2, h2⟩ := wrbyte_runs control powerOnAndAdcEnable h1.idle
  obtain ⟨s3, h3, hdata⟩ := rdbyte_runs control 0 e h2.idle
  have hrun : sensorInit sel [.count 2, .count 2, .count 1, .bytes [e]] s =
      { outcome := if (hostRead .rdv (off 0x14) s3).extractLsb' 0 8 = powerOnAndAdcEnable then .success ()
          else .initVerificationFailed
        state := { s3 with readData := hostRead .rdv (off 0x14) s3 }
        answers := [] } :=
    (h1.run _ _).trans ((h2.run _ _).trans (h3.run _ _))
  have htrace : s3.bus.trace = s.bus.trace ++ [.write [0x80, sel], .write [0x80, 0x03], .write [0x80], .read 1] := by
    rw [h3.trace, h2.trace, h1.trace, List.append_assoc, List.append_assoc]
    rfl
  rw [hrun, hostRead_data_byte hdata]
  exact ⟨rfl, h3.idle.2, h3.done, htrace⟩

/-- Settles O59: both reads decode the two bytes of the pair side by side. -/
theorem blockReadEqualsPairReads : Obligations.BlockReadEqualsPairReads := by
  intro m ch d s s' hidle hidle'
  obtain ⟨hall, halltrace⟩ := sensorRdall_runs m d hidle
  obtain ⟨hchan, hchantrace⟩ := sensorRdchan_runs m ch (d ⟨2 * (m.pair ch).val, by omega⟩)
    (d ⟨2 * (m.pair ch).val + 1, by omega⟩) hidle'
  refine ⟨_, _, append_eq_ofNat _ _, ?_, hall, halltrace, hchan, hchantrace⟩
  cases ch <;> rfl

end Sys2Proof.Claims
end

section
/-! # The exceptions: answers that come late, and steps that never stop -/

namespace Sys2Proof.Machine

/-- R183, R196: an answer to a request that is not outstanding is discarded. -/
theorem takeAnswer_late {n : Nat} {s : State} (a : BusAnswer) (h : ¬ (s.rdv.busy = true ∧ n + 1 = s.bus.trace.length)) :
    takeAnswer n a s = .next s := if_neg h

/-- With the transfer of the latched command in flight, an answer of the shape of its request is taken or discarded. -/
theorem takeAnswer_answers {n : Nat} {a : BusAnswer} {s : State} (hs : s.transferInv)
    (hfit : ∀ q, s.bus.trace[n]? = some q → BusAnswer.fits q a = true) : ∃ t, takeAnswer n a s = .next t := by
  by_cases hout : s.rdv.busy = true ∧ n + 1 = s.bus.trace.length
  · obtain ⟨hb, hn⟩ := hout
    obtain ⟨i, ph, hi, hp, hphase, hlast⟩ := hs.2 hb
    obtain ⟨before, ht⟩ := List.getLast?_eq_some_iff.1 hlast
    have hbefore : n = before.length := by simpa [ht] using hn
    have hf : BusAnswer.fits (outstandingRequest i ph) a = true := hfit _ (by simp [ht, hbefore])
    rw [takeAnswer_outstanding hb ht hbefore hf hp hi]
    exact rdvResponse_ok s hphase hf
  · exact ⟨s, takeAnswer_late a hout⟩

/-- R22, R199: on the provider's true dimensions the engine's turn always answers. -/
theorem rasTurn_answers {s : State} (hon : s.ras.onSurfaceInv) (hd : s.ras.busy = true → s.dimensionsHonest) :
    ∃ t, rasTurn s = .next t := by
  cases hb : s.ras.busy with
  | false => exact ⟨s, rasTurn_idle hb⟩
  | true =>
    cases hp : s.ras.seq[s.ras.k]? with
    | some p =>
      have hs := hon hb p (List.mem_of_getElem? hp)
      exact ⟨_, (rasTurn_pixel hb hp).trans (pixelStep_ok hs (pixelIndex_lt_size (hd hb) hs))⟩
    | none =>
      by_cases hk : s.ras.k = s.ras.seq.length
      · exact ⟨_, rasTurn_finish hb hk⟩
      · exact ⟨s, by simp [rasTurn, hb, hp, hk]⟩

end Sys2Proof.Machine

namespace Sys2Proof.Claims

open Sys2Proof.Machine

/-- Settles O23, for the schedule without the answer. -/
theorem lateAnswerIsDiscarded : Obligations.LateAnswerIsDiscarded := by
  intro s n a rest hs hlate
  have hout : ¬ (s.rdv.busy = true ∧ n + 1 = s.bus.trace.length) := by
    rintro ⟨hb, hn⟩
    exact hlate.elim (by simp [hb]) (absurd hn)
  rw [step_cons hs]
  exact takeAnswer_late (s := { s with script := rest }) a hout

/-- Settles O57, by the agent that acts: only the engine and the Bus provider need the invariants. -/
theorem noStepStopsOfItself : Obligations.NoStepStopsOfItself := by
  intro s hon htr hd hother hfit
  cases hs : s.script with
  | nil =>
    obtain ⟨t, ht⟩ := rasTurn_answers hon hd
    exact ⟨t, (step_nil hs).trans ht⟩
  | cons e rest =>
    rw [stepSafe, step_cons hs]
    cases e with
    | hostWrite u o v => exact hostWrite_answers u o v _
    | hostRead u o => exact ⟨_, rfl⟩
    | rasTurn => exact rasTurn_answers (s := { s with script := rest }) hon hd
    | busAnswer n a => exact takeAnswer_answers (s := { s with script := rest }) htr fun q => hfit n a rest q hs
    | reset => exact ⟨_, rfl⟩
    | surfaceWrite idx v => exact absurd hs (hother idx v rest)

end Sys2Proof.Claims
end
